-- ==== Sys2Proof/Word.lean ====
section
/-! DEFINITION. The word types of the part: bytes of frames, tags and counters that wrap, ring
sequence numbers, strobe numbers and generations. Quantities the spec counts or measures exactly
(travel, points, positions, channel values) are `Int` and `Nat`, not words. -/

namespace Sys2Proof

/-- One byte of a lane frame, a link frame or a record layout (13). -/
abbrev Byte := BitVec 8

/-- A 16-bit word: tags (R190), filters (R166), CRC-16 (R45). -/
abbrev Word16 := BitVec 16

/-- A 32-bit wrapping number: strobe numbers (R42), ring sequence numbers (R161), generations (R175). -/
abbrev Word32 := BitVec 32

end Sys2Proof
end

