-- ==== Sys2Proof/Syntax.lean ====
section
/-! DEFINITION. The commands of the part: one constructor of `Instr` for each row of
spec/opcode_table.json. The table gives no operands, so each constructor carries what the row's rule
says arrives from outside: a tachometer, a lane or a port, a level, or the bytes delivered. -/

namespace Sys2Proof

/-- The survey link ports P0, P1 and P2 (00, Connections). -/
inductive Port where
  | p0 | p1 | p2
deriving DecidableEq, Repr

/-- The sensor lanes SL0 to SL3 (00, Connections). -/
inductive Lane where
  | sl0 | sl1 | sl2 | sl3
deriving DecidableEq, Repr

/-- The tachometers A and B (01). -/
inductive TachId where
  | a | b
deriving DecidableEq, Repr

/-- The distance strobe outputs DS0 and DS1 (R38). -/
inductive DsId where
  | ds0 | ds1
deriving DecidableEq, Repr

/-- The steps of the part (spec/opcode_table.json), in the table's order. A request step names the
port at which it is dispatched; the request's fields stand in the port's request queue (R189). -/
inductive Instr where
  /-- RESET_LINE (R199). -/
  | resetLine
  /-- RESET_PART (R198): dispatch of a Reset Part request at the port. -/
  | resetPart (p : Port)
  /-- PULSE_CANDIDATE (R1): a rising edge of phase 1 of the tachometer, with the level of its phase 2. -/
  | pulseCandidate (x : TachId) (phase2 : Bool)
  /-- PULSE_ACCEPT (R2): W_min has passed with phase 1 still high. -/
  | pulseAccept (x : TachId)
  /-- GLITCH (R1): phase 1 falls before W_min has passed. -/
  | glitch (x : TachId)
  /-- SAMPLE_STROBE (R42): the strobe period ends. -/
  | sampleStrobe
  /-- DISTANCE_BASE_STROBE (R23): the distance base takes the oldest strobe items handed to it. -/
  | distanceBaseStrobe
  /-- DISTANCE_STROBE_END (R39): the 10 µs running on the line end. -/
  | distanceStrobeEnd (line : DsId)
  /-- MARKER_PULSE_END (R141): the pulse end of MK is reached. -/
  | markerPulseEnd
  /-- LANE_FRAME (R44): a lane delivers these bytes as one whole frame. -/
  | laneFrame (lane : Lane) (bytes : List Byte)
  /-- SPATIAL_SAMPLE_TAKE (R77): the geometry unit takes the oldest spatial sample handed to it. -/
  | spatialSampleTake
  /-- RING_APPEND (R163): the append port grants one waiting record. -/
  | ringAppend
  /-- POINT_EVALUATION (R115): the exceedance unit takes the POINT record at the front of its list. -/
  | pointEvaluation
  /-- TRUNCATION (R129): the exceedance unit takes the truncation request at the front of its list. -/
  | truncation
  /-- LINK_FRAME (R188): a link delivers these bytes as one whole frame. -/
  | linkFrame (p : Port) (bytes : List Byte)
  /-- LOSS_OF_SIGNAL (R187). -/
  | lossOfSignal (p : Port)
  /-- TRANSMIT_FRAME_END (R194): the port's transmitter has sent its frame whole. -/
  | transmitFrameEnd (p : Port)
  /-- UNKNOWN_REQUEST (R190). -/
  | unknownRequest (p : Port)
  /-- IDENTIFY (R196). -/
  | identify (p : Port)
  /-- READ_STATUS (R197). -/
  | readStatus (p : Port)
  /-- SET_PORT_OPTIONS (R195). -/
  | setPortOptions (p : Port)
  /-- READ_SETTINGS (R177). -/
  | readSettings (p : Port)
  /-- COMMIT_SETTINGS (R179). -/
  | commitSettings (p : Port)
  /-- AWAIT_CHANGE (R183). -/
  | awaitChange (p : Port)
  /-- RUN_START (R150). -/
  | runStart (p : Port)
  /-- GEOMETRY_RUN_START (R93). -/
  | geometryRunStart
  /-- EXCEEDANCE_RUN_START (R132). -/
  | exceedanceRunStart
  /-- MARKING_RUN_START (R145). -/
  | markingRunStart
  /-- DISTANCE_BASE_RUN_START (R22). -/
  | distanceBaseRunStart
  /-- RUN_PAUSE (R152). -/
  | runPause (p : Port)
  /-- GEOMETRY_RUN_PAUSE (R90). -/
  | geometryRunPause
  /-- FLUSH_FINISHED (R130). -/
  | flushFinished
  /-- TRUNCATION_FINISHED (R152). -/
  | truncationFinished
  /-- RUN_RESUME (R154). -/
  | runResume (p : Port)
  /-- GEOMETRY_RUN_RESUME (R92). -/
  | geometryRunResume
  /-- RUN_END (R155). -/
  | runEnd (p : Port)
  /-- DISTANCE_BASE_RUN_END (R155). -/
  | distanceBaseRunEnd
  /-- RUN_OPERATION_COMPLETE (R148). -/
  | runOperationComplete
  /-- POSITION_FIX (R33). -/
  | positionFix (p : Port)
  /-- CLASS_CHANGE (R107). -/
  | classChange (p : Port)
  /-- MANUAL_MARK (R143). -/
  | manualMark (p : Port)
  /-- STREAM_START (R169). -/
  | streamStart (p : Port)
  /-- STREAM_PAUSE (R192). -/
  | streamPause (p : Port)
  /-- STREAM_RESUME (R191). -/
  | streamResume (p : Port)
  /-- STREAM_STOP (R193). -/
  | streamStop (p : Port)
  /-- READ_RECORDS (R171). -/
  | readRecords (p : Port)
  /-- READ_LANE_HEALTH (R58). -/
  | readLaneHealth (p : Port)
  /-- CLEAR_LANE_FLAGS (R54). -/
  | clearLaneFlags (p : Port)
  /-- READ_LANE_SAMPLE (R59). -/
  | readLaneSample (p : Port)
deriving DecidableEq, Repr

end Sys2Proof
end

