-- ==== Sys2Proof/Decode.lean ====
section
/-! DEFINITION. The command a word spells by the table's bits. No row of spec/opcode_table.json
gives bits (spec/98_reader.md: n_rows_with_fixed is 0), so no word spells a command. What the part does
decode, lane frames and link frames, is in Machine/Operands.lean. -/

namespace Sys2Proof

/-- The command spelled by the `nbits` low bits of `w` under the table's bits: none, for every word. -/
def decodeTableWord (_nbits _w : Nat) : Option Instr := none

end Sys2Proof
end

