-- ==== Sys2Proof/Config.lean ====
section
/-! DEFINITION. What one part has fixed: the capacities the spec states, and the values the spec leaves
open (free values): those written into the part when it is made (R196), and a field beyond its range. -/

namespace Sys2Proof.Config

/-- The record ring holds 8192 records (R161). -/
def ringCapacity : Nat := 8192

/-- A transmit queue holds at most three delivery items (R165). -/
def transmitCapacity : Nat := 3

/-- A request queue holds at most 4 requests (R189). -/
def requestCapacity : Nat := 4

/-- BUSY answers and maskable notices are placed below 16 items in the reply queue (R194). -/
def replyRoom : Nat := 16

/-- The mark queue holds 16 entries (R137). -/
def markCapacity : Nat := 16

/-- The class queue holds 8 entries (R106). -/
def classCapacity : Nat := 8

/-- The speed window holds at most 65 entries (R16). -/
def windowCapacity : Nat := 65

/-- The cross-level history holds at most 128 pairs (R76). -/
def historyCapacity : Nat := 128

/-- The part code of Identify (R196). -/
def partCode : Nat := 740

/-- The revision number of the part (R196). DESIGN CHOICE (log 12): no value is given, so none is
fixed here. -/
opaque revision : Byte

/-- The serial number's indication in the field-valid mask (R196). DESIGN CHOICE (log 12): open. -/
opaque serialValid : Bool

/-- The serial number (R196). DESIGN CHOICE (log 12): open. -/
opaque serialNumber : Word32

/-- The calibration date's indication in the field-valid mask (R196). DESIGN CHOICE (log 12): open. -/
opaque calibrationValid : Bool

/-- The year of the calibration date (R196). DESIGN CHOICE (log 12): open. -/
opaque calibrationYear : Word16

/-- The month of the calibration date (R196). DESIGN CHOICE (log 12): open. -/
opaque calibrationMonth : Byte

/-- The day of the calibration date (R196). DESIGN CHOICE (log 12): open. -/
opaque calibrationDay : Byte

/-- What a field of `n` bytes carries for a value outside the field's range. DESIGN CHOICE (log 14):
the spec states no result, so none is fixed here. -/
opaque wideField (n : Nat) (v : Int) : Nat

end Sys2Proof.Config
end

