-- ==== Sys2Proof/Machine/Types.lean ====
section
/-! DEFINITION. The data of the part's blocks, plain data throughout: settings images, sample sets,
points, records, replies. What the blocks hold of them is in Machine/State.lean. -/

namespace Sys2Proof.Machine

/-- One value for each survey link port. -/
structure PerPort (α : Type) where
  p0 : α
  p1 : α
  p2 : α
deriving DecidableEq, Repr

/-- One value for each sensor lane. -/
structure PerLane (α : Type) where
  sl0 : α
  sl1 : α
  sl2 : α
  sl3 : α
deriving DecidableEq, Repr

/-- One value for each tachometer. -/
structure PerTach (α : Type) where
  a : α
  b : α
deriving DecidableEq, Repr

/-- The sections of the shared settings, S0 to S5 (11.1). -/
inductive Section where
  | access | calibration | sampling | odometry | limits | marking
deriving DecidableEq, Repr

/-- One value for each settings section. -/
structure PerSection (α : Type) where
  access : α
  calibration : α
  sampling : α
  odometry : α
  limits : α
  marking : α
deriving DecidableEq, Repr

/-- One field of a message body: its size in bytes and its value, signed or not (13). -/
structure Field where
  size : Nat
  value : Int
deriving DecidableEq, Repr

/-! ## Settings images (13.6) -/

/-- The permissions the ACCESS section gives one port (R182). -/
structure PortAccess where
  commit : PerSection Bool
  rawRead : Bool
  reset : Bool
  runControl : Bool
  position : Bool
deriving DecidableEq, Repr

/-- The lane mode of a lane (R56). -/
inductive LaneMode where
  | auto | forceOff
deriving DecidableEq, Repr

/-- The calibration of one rail head (03, settings table; R48). -/
structure HeadCalibration where
  dPolarity : Int
  dOffset : Int
  vPolarity : Int
  vOffset : Int
deriving DecidableEq, Repr

/-- The CALIBRATION image, S1 (11.1). -/
structure CalibrationImage where
  modes : PerLane LaneMode
  left : HeadCalibration
  right : HeadCalibration
  zLOffset : Int
  zROffset : Int
  wPolarity : Int
  wOffset : Int
  phiPolarity : Int
  phiOffset : Int
  g0 : Int
  railDistance : Int
  assemblyWindow : Nat
deriving DecidableEq, Repr

/-- The SAMPLING image, S2 (11.1). -/
structure SamplingImage where
  rate : Nat
  interval : Nat
  d0 : Nat
  d1 : Nat
  halfV : Nat
  halfA : Nat
  twistS : Nat
  twistL : Nat
  vMin : Nat
deriving DecidableEq, Repr

/-- How a fix's correction is applied (R31). -/
inductive FixMode where
  | step | blend
deriving DecidableEq, Repr

/-- The ODOMETRY image, S3 (11.1). -/
structure OdometryImage where
  pulsesPerRev : Nat
  circumference : Nat
  wMin : Nat
  tolRel : Nat
  tolAbs : Nat
  failDistance : Nat
  reverse : PerTach Bool
  fixWindow : Nat
  fixMode : FixMode
  blendRate : Nat
deriving DecidableEq, Repr

/-- The per-channel parameters of the LIMITS image (R98). -/
structure ChannelParams where
  hysteresis : Nat
  closeCount : Nat
  minLength : Nat
  absentRun : Nat
deriving DecidableEq, Repr

/-- The LIMITS image, S4: 192 thresholds in the order of their field indices (R99), each a value or
absent, and the parameters of channels 0 to 7. -/
structure LimitsImage where
  thresholds : List (Option Int)
  params : List ChannelParams
deriving DecidableEq, Repr

/-- The MARKING image, S5 (08, settings table). -/
structure MarkingImage where
  enable : Bool
  trigger : Nat
  offset : Nat
  merge : Nat
  pulse : Nat
deriving DecidableEq, Repr

/-- The committed images of the six sections (R175). -/
structure Images where
  /-- Ten bytes for each port, as committed (R175, 13.6). -/
  access : PerPort (List Byte)
  calibration : CalibrationImage
  sampling : SamplingImage
  odometry : OdometryImage
  limits : LimitsImage
  marking : MarkingImage
deriving DecidableEq, Repr

/-! ## Tachometers (01) -/

/-- The health states of a tachometer (1.4). -/
inductive Health where
  | healthy | failed | recovering
deriving DecidableEq, Repr

/-- A pulse candidate with the values latched at its rising edge (R1, R2). -/
structure Candidate where
  wMin : Nat
  reverse : Bool
  phase2 : Bool
deriving DecidableEq, Repr

/-- The state of one tachometer (R21). -/
structure Tach where
  pulses : Int
  latched : Int
  seen : Bool
  health : Health
  silent : Nat
  recovery : Nat
  glitches : Nat
  candidate : Option Candidate
deriving DecidableEq, Repr

/-- The four tachometer flags of a strobe (R18). -/
structure TachFlags where
  disagreement : Bool
  conflict : Bool
  tachFailed : Bool
  overSpeed : Bool
deriving DecidableEq, Repr

/-- The items the tachometer unit hands on at a strobe (R18), with the strobe number. -/
structure StrobeItems where
  strobe : Word32
  delta : Int
  net : Int
  speed : Nat
  flags : TachFlags
deriving DecidableEq, Repr

/-! ## Lanes and sample sets (03, 04) -/

/-- The lane states (3.5). -/
inductive LaneCondition where
  | off | seeking | locked | lost
deriving DecidableEq, Repr

/-- The raw payload of a lane frame, by its kind (3.2). -/
inductive Payload where
  | head (d v : Int)
  | inertial (zL zR w phi : Int)
  | aux (value : Int)
deriving DecidableEq, Repr

/-- What a filled lane slot holds of its frame: status and raw payload (R46). -/
structure Reading where
  status : Byte
  payload : Payload
deriving DecidableEq, Repr

/-- A lane's last frame, with the strobe number of the set it filled (R46, R59). -/
structure LastFrame where
  strobe : Word32
  sequence : Byte
  reading : Reading
deriving DecidableEq, Repr

/-- The state of one lane receiver (03, state table). -/
structure LaneReceiver where
  state : LaneCondition
  hits : Nat
  misses : Nat
  live : Bool
  sticky : PerPort Bool
  errors : Nat
  late : Nat
  missing : Nat
  accepted : Word32
  last : Option LastFrame
deriving DecidableEq, Repr

/-- The nine processed values, each a number or absent (R48 to R51). -/
structure Values where
  dL : Option Int
  vL : Option Int
  dR : Option Int
  vR : Option Int
  zL : Option Int
  zR : Option Int
  w : Option Int
  phi : Option Int
  aux : Option Int
deriving DecidableEq, Repr

/-- The conditions of a sample set (4.1). -/
inductive SetCondition where
  | opened | closed | released
deriving DecidableEq, Repr

/-- A sample set (4.1). -/
structure SampleSet where
  strobe : Word32
  condition : SetCondition
  awaited : PerLane Bool
  items : Option StrobeItems
  slots : PerLane (Option Reading)
  values : Values
  absent : PerLane Bool
  late : Bool
deriving DecidableEq, Repr

/-- A recent set: its strobe number, the strobe at or after which it closed, and the lanes from
which it holds a frame (R46). -/
structure RecentSet where
  strobe : Word32
  closedAt : Word32
  holds : PerLane Bool
deriving DecidableEq, Repr

/-! ## Points (02, 04, 05) -/

/-- The orientation of a run (R30). -/
inductive Orientation where
  | up | down
deriving DecidableEq, Repr

/-- A point-queue entry (R29). -/
structure PointEntry where
  point : Nat
  strobe : Word32
  target : Int
  left : Int
  right : Int
  position : Nat
  corrected : Bool
  limited : Bool
deriving DecidableEq, Repr

/-- A distance strobe line (R38, R39): inactive; active for 10 µs; in the 10 µs between two pulses; or
past them and ready for a pulse that waits for the other line. -/
inductive DsLine where
  | inactive | active | between | ready
deriving DecidableEq, Repr

/-- The lines on which a point is due a pulse (R38). -/
structure DsPulses where
  ds0 : Bool
  ds1 : Bool
deriving DecidableEq, Repr

/-- The two distance strobe outputs with the points whose pulses have not begun, oldest first (R38,
R39). -/
structure DsOutputs where
  ds0 : DsLine
  ds1 : DsLine
  due : List DsPulses
deriving DecidableEq, Repr

/-- A spatial sample (R69). -/
structure SpatialSample where
  point : Nat
  target : Int
  position : Nat
  corrected : Bool
  limited : Bool
  values : Values
  speed : Nat
  flags : TachFlags
  late : Bool
  absent : PerLane Bool
deriving DecidableEq, Repr

/-- A channel value of a POINT record, with its saturation bit (R85). -/
structure Channel where
  value : Option Int
  saturated : Bool
deriving DecidableEq, Repr

/-- The eight geometry channels, in their numbering (5.1). -/
structure Channels where
  gauge : Channel
  xlevel : Channel
  twistS : Channel
  twistL : Channel
  topL : Channel
  topR : Channel
  alignL : Channel
  alignR : Channel
deriving DecidableEq, Repr

/-- A sample in the spatial window with its per-point values (R77 to R81). -/
structure WindowSample where
  sample : SpatialSample
  lowSpeed : Bool
  gauge : Channel
  xlevel : Channel
  yL : Option Int
  yR : Option Int
  aL : Option Int
  aR : Option Int
  written : Bool
deriving DecidableEq, Repr

/-- A pair of the cross-level history (R76). -/
structure HistoryPair where
  point : Nat
  xlevel : Channel
deriving DecidableEq, Repr

/-! ## Records (13.4) -/

/-- The sense of a limit (Terms). -/
inductive Sense where
  | upper | lower
deriving DecidableEq, Repr

/-- The outcome of a mark request (R137). -/
inductive MarkOutcome where
  | none | queued | merged | late | dropped
deriving DecidableEq, Repr

/-- The source of a mark: a tracker's channel and sense, or a Manual Mark's port (R138). -/
inductive MarkSource where
  | tracker (channel : Nat) (sense : Sense)
  | manual (port : Port)
deriving DecidableEq, Repr

/-- The run states (R148). -/
inductive RunState where
  | idle | running | paused
deriving DecidableEq, Repr

/-- A POINT record (R87). -/
structure PointRecord where
  point : Nat
  position : Nat
  speed : Nat
  cls : Nat
  channels : Channels
  aux : Option Int
  absent : PerLane Bool
  late : Bool
  flags : TachFlags
  lowSpeed : Bool
  paused : Bool
  corrected : Bool
  limited : Bool
  runFinal : Bool
deriving DecidableEq, Repr

/-- An EXCEEDANCE record (R128). -/
structure ExceedanceRecord where
  number : Nat
  channel : Nat
  sense : Sense
  level : Nat
  classAtPeak : Nat
  startPoint : Nat
  endPoint : Nat
  peakPoint : Nat
  startPosition : Nat
  endPosition : Nat
  peakPosition : Nat
  peakValue : Int
  speed : Nat
  length : Nat
  outcome : MarkOutcome
  containsAbsent : Bool
  interrupted : Bool
  truncatedByEnd : Bool
  truncatedByPause : Bool
  corrected : Bool
  classChanged : Bool
deriving DecidableEq, Repr

/-- An URGENT record (R124). -/
structure UrgentRecord where
  channel : Nat
  sense : Sense
  point : Nat
  position : Nat
  value : Int
deriving DecidableEq, Repr

/-- A MARK record (R142). -/
structure MarkRecord where
  point : Nat
  source : MarkSource
  target : Int
  travel : Int
  strobe : Word32
  paused : Bool
deriving DecidableEq, Repr

/-- A CLASS record (R110). -/
structure ClassRecord where
  point : Nat
  position : Nat
  newClass : Nat
  previous : Nat
  requested : Nat
  port : Port
deriving DecidableEq, Repr

/-- A FIX record (R34). -/
structure FixRecord where
  point : Nat
  truePosition : Nat
  error : Int
  remainder : Int
  force : Bool
deriving DecidableEq, Repr

/-- A FIX record its writer has formed, with what it reaches the append port behind: the POINT records
written before the fix was accepted and not yet appended (R34, R164), and the RUN_START record of its run
while that has not been appended (R150, R164). -/
structure WaitingFix where
  record : FixRecord
  behind : Nat
  behindStart : Bool
deriving DecidableEq, Repr

/-- A RUN_START record (R151). -/
structure RunStartRecord where
  port : Port
  position : Nat
  orientation : Orientation
  cls : Nat
  interval : Nat
  rate : Nat
  delay : Nat
  generations : PerSection Word32
deriving DecidableEq, Repr

/-- The exceedance unit's run counts (R134). -/
structure ExceedanceCounts where
  level1 : Nat
  level2 : Nat
  level3 : Nat
  suppressed : Nat
  urgent : Nat
deriving DecidableEq, Repr

/-- The marking unit's mark counts (R146). -/
structure MarkCounts where
  queued : Nat
  fired : Nat
  late : Nat
  merged : Nat
  dropped : Nat
  discarded : Nat
deriving DecidableEq, Repr

/-- What the distance base hands over at the end of a run (step 5 of R155). -/
structure BaseCounts where
  points : Nat
  applied : Nat
  refused : Nat
deriving DecidableEq, Repr

/-- A RUN_END record (R157). -/
structure RunEndRecord where
  port : Port
  endedFrom : RunState
  exceedances : ExceedanceCounts
  marks : MarkCounts
  base : BaseCounts
deriving DecidableEq, Repr

/-- A PAUSE record (R153). -/
structure PauseRecord where
  port : Port
  lastGenerated : Nat
  lastWritten : Option Nat
  closed : Nat
deriving DecidableEq, Repr

/-- A RESUME record (R154). -/
structure ResumeRecord where
  port : Port
  lastGenerated : Nat
deriving DecidableEq, Repr

/-- A record, as its writer hands it to the append port (13.4). -/
inductive Record where
  | point (r : PointRecord)
  | exceedance (r : ExceedanceRecord)
  | urgent (r : UrgentRecord)
  | mark (r : MarkRecord)
  | cls (r : ClassRecord)
  | fix (r : FixRecord)
  | runStart (r : RunStartRecord)
  | runEnd (r : RunEndRecord)
  | pause (r : PauseRecord)
  | resume (r : ResumeRecord)
deriving DecidableEq, Repr

/-- A record in the ring: its sequence number, its run number and the record (R163). -/
structure RingRecord where
  sequence : Word32
  run : Nat
  body : Record
deriving DecidableEq, Repr

/-- The writers of the ring, in their rotation (R163). -/
inductive Writer where
  | geometry | exceedance | marking | base | runControl
deriving DecidableEq, Repr

/-! ## Exceedances, classes and marks (06, 07, 08) -/

/-- The cause of a truncation (R129). -/
inductive TruncationCause where
  | pause | runEnd
deriving DecidableEq, Repr

/-- An item of the evaluation list (R114). -/
inductive EvalItem where
  | point (r : PointRecord)
  | truncation (cause : TruncationCause)
deriving DecidableEq, Repr

/-- An evaluation or a truncation in progress, with the number of the tracker that acts next once the record
waiting has been appended (R115, R127, R129). `closed` counts the trackers that were OPEN. -/
inductive Turn where
  | point (r : PointRecord) (next : Nat)
  | truncation (cause : TruncationCause) (closed next : Nat)
deriving DecidableEq, Repr

/-- The exceedance in progress of an OPEN tracker (R113). `mark` is the mark indicator with its
outcome: `none` while the mark has not been decided. -/
structure Progress where
  startPoint : Nat
  startPosition : Nat
  endPoint : Nat
  endPosition : Nat
  level : Nat
  peakPoint : Nat
  peakPosition : Nat
  peakValue : Int
  classAtPeak : Nat
  speedAtPeak : Nat
  clearCount : Nat
  absentRun : Nat
  containsAbsent : Bool
  classChanged : Bool
  correctionThroughEnd : Bool
  correctionSinceEnd : Bool
  urgent : Bool
  mark : Option MarkOutcome
deriving DecidableEq, Repr

/-- A tracker: CLEAR (`none`) or OPEN with its exceedance in progress (R113). -/
abbrev Tracker := Option Progress

/-- The zone of a channel value in one sense (R103). -/
inductive Zone where
  | absent
  | noLimit
  | exceeding (level : Nat)
  | band
  | inside
deriving DecidableEq, Repr

/-- A class-queue entry (R106). -/
structure ClassEntry where
  effective : Nat
  cls : Nat
  requested : Nat
  port : Port
deriving DecidableEq, Repr

/-- A taken truncation whose report is due when `left` more of its records have been appended (R129). -/
structure TruncationReport where
  cause : TruncationCause
  closed : Nat
  left : Nat
deriving DecidableEq, Repr

/-- A mark-queue entry (R138). -/
structure MarkEntry where
  target : Int
  point : Nat
  source : MarkSource
deriving DecidableEq, Repr

/-! ## Runs (09) -/

/-- The run operations with what each carries from its taking (R150, R152, R154, R155). -/
inductive RunOperation where
  | start (position : Nat) (orientation : Orientation) (cls : Nat)
  | pause (lastGenerated : Nat)
  | resume
  | finish
deriving DecidableEq, Repr

/-- The stage a run operation has reached: what run control waits for (R150, R152, R154, R155). -/
inductive Stage where
  /-- the operation's record stands at the append port -/
  | recordWaiting
  /-- START: handed to the geometry, exceedance and marking units; which of them have taken it -/
  | starting (geometry exceedance marking : Bool)
  /-- START: handed to the distance base -/
  | baseStarting
  /-- PAUSE: handed to the geometry unit -/
  | geometryPausing
  /-- RESUME: handed to the geometry unit -/
  | geometryResuming
  /-- END: handed to the distance base -/
  | baseEnding
  /-- PAUSE and END: waiting for the geometry unit's report -/
  | flushing
  /-- PAUSE and END: waiting for the exceedance unit's report -/
  | truncating
  /-- nothing is left but the completion -/
  | completing
deriving DecidableEq, Repr

/-- The operation in progress (R148): its port and tag, the run state in force when it was taken,
its own data and its stage. -/
structure Operation where
  port : Port
  tag : Word16
  previous : RunState
  what : RunOperation
  stage : Stage
deriving DecidableEq, Repr

/-- The pending summary of an END (09, state table). -/
structure Summary where
  exceedances : Option ExceedanceCounts
  marks : Option MarkCounts
  base : Option BaseCounts
deriving DecidableEq, Repr

/-! ## Ring delivery and links (10, 12) -/

/-- A delivery item of a transmit queue (R165). -/
inductive DeliveryItem where
  | record (r : RingRecord)
  | gap (first : Word32) (lost : Nat)
deriving DecidableEq, Repr

/-- The overrun mode of a port (R168). -/
inductive OverrunMode where
  | inStream | immediate
deriving DecidableEq, Repr

/-- The stream states (12.4). -/
inductive StreamState where
  | none | active | pausing | paused
deriving DecidableEq, Repr

/-- The completion codes (13.3). -/
inductive Completion where
  | ok | busy | unknownRequest | badLength | wrongState | notPermitted | invalidField
  | lostReservation | applyPending | runActive | accessLockout | outOfWindow | tooOld | pointAhead
  | queueFull | markingOff | gone | notYet | streamActive | noStream
deriving DecidableEq, Repr

/-- A response: the request's code and tag, the completion code and the fields that follow it (R190). -/
structure Response where
  code : Byte
  tag : Word16
  completion : Completion
  fields : List Field
deriving DecidableEq, Repr

/-- The notices (13.5). -/
inductive Notice where
  | overrun (first : Word32) (lost : Nat)
  | runState (previous new : RunState) (run : Nat) (port : Port)
  | laneState (lane : Lane) (previous new : LaneCondition)
  | tachState (x : TachId) (previous new : Health)
deriving DecidableEq, Repr

/-- An item of the reply queue (R194). A read-record frame carries its request's tag; `last` marks
the last record of its Read Records. -/
inductive ReplyItem where
  | response (r : Response)
  | notice (n : Notice)
  | readRecord (tag : Word16) (r : RingRecord) (last : Bool)
deriving DecidableEq, Repr

/-- What the transmitter is sending: an item taken from the reply queue, or the front item of the
transmit queue, which keeps its place there (R165, R194). -/
inductive Sending where
  | reply (item : ReplyItem)
  | stream (item : DeliveryItem)
deriving DecidableEq, Repr

/-- The frame in transmission: what it carries, and its bytes on the line (13.2). -/
structure Transmission where
  what : Sending
  frame : List Byte
deriving DecidableEq, Repr

/-- A queued request: its code, tag and body (R189, 13.2). -/
structure Request where
  code : Byte
  tag : Word16
  body : List Byte
deriving DecidableEq, Repr

/-- A Read Records under execution: the records of its read list not yet placed, its tag and the
number of records it sends (R171). -/
structure ReadJob where
  tag : Word16
  remaining : List RingRecord
  count : Nat
deriving DecidableEq, Repr

/-- The notice mask: one enable for each maskable kind (12, state table). -/
structure NoticeMask where
  runState : Bool
  laneState : Bool
  tachState : Bool
deriving DecidableEq, Repr

/-- A port's reservation (R177). -/
structure Reservation where
  sec : Section
  generation : Word32
deriving DecidableEq, Repr

/-- A parked Await (R183). -/
structure ParkedAwait where
  sec : Section
  generation : Word32
  tag : Word16
deriving DecidableEq, Repr

/-- The link states (R186). -/
inductive LinkState where
  | up | down
deriving DecidableEq, Repr

/-- The state of one survey link port, with the ring's and the settings store's per-port state
(12, 10 and 11, state tables). -/
structure PortState where
  link : LinkState
  framing : Nat
  crc : Nat
  requests : List Request
  replies : List ReplyItem
  discarded : Nat
  stream : StreamState
  streamTag : Word16
  pendingPause : Option Word16
  mask : NoticeMask
  overrun : OverrunMode
  cursor : Word32
  filter : Word16
  decimation : Nat
  txQueue : List DeliveryItem
  readJob : Option ReadJob
  tx : Option Transmission
  reservation : Option Reservation
  await : Option ParkedAwait
deriving DecidableEq, Repr

end Sys2Proof.Machine
end

