-- ==== Sys2Proof/Machine/Bytes.lean ====
section
/-! DEFINITION. Bytes: little-endian fields (R200, 13), the CRC-16 of R45, and the two roundings of
the spec's numeric conventions (00). -/

namespace Sys2Proof.Machine

/-- The `n` low bytes of a natural, least significant byte first (00, Byte order). -/
def leNat : Nat → Nat → List Byte
  | 0, _ => []
  | n + 1, v => BitVec.ofNat 8 v :: leNat n (v / 256)

/-- Whether a value lies in the range of a field of `n` bytes, unsigned or two's complement. -/
def fitsField (n : Nat) (v : Int) : Bool :=
  decide (-(256 : Int) ^ n ≤ 2 * v) && decide (v < (256 : Int) ^ n)

/-- A field of `n` bytes, two's complement, least significant byte first (13). What the field carries
for a value outside its range is a free value (log 14). -/
def leInt (n : Nat) (v : Int) : List Byte :=
  leNat n (if fitsField n v then (v % (256 : Int) ^ n).toNat else Config.wideField n v)

/-- The natural that little-endian bytes spell. -/
def ofLe : List Byte → Nat
  | [] => 0
  | b :: bs => b.toNat + 256 * ofLe bs

/-- The two's complement value of an `n`-byte natural (13). -/
def signedOf (n v : Nat) : Int :=
  if 2 * v < 256 ^ n then (v : Int) else (v : Int) - (256 : Int) ^ n

/-- The bytes of a list of fields, packed in order without padding (13). -/
def fieldBytes : List Field → List Byte
  | [] => []
  | f :: fs => leInt f.size f.value ++ fieldBytes fs

/-- The total size of a list of fields. -/
def fieldSize : List Field → Nat
  | [] => 0
  | f :: fs => f.size + fieldSize fs

/-- One bit of the CRC-16 with polynomial 0x1021, most significant bit first (R45). -/
def crcBit (c : Word16) : Word16 := if c.msb then (c <<< 1) ^^^ 0x1021 else c <<< 1

/-- One byte of the CRC-16 (R45). -/
def crcByte (c : Word16) (b : Byte) : Word16 :=
  crcBit (crcBit (crcBit (crcBit (crcBit (crcBit (crcBit (crcBit (c ^^^ (b.zeroExtend 16 <<< 8)))))))))

/-- The CRC-16 of R45: initial value 0xFFFF, not inverted. -/
def crc16 (bytes : List Byte) : Word16 := bytes.foldl crcByte 0xFFFF

/-- Division rounded to the nearest integer, halves away from zero (00, Rounding), for a positive
divisor. -/
def roundDiv (n d : Int) : Int :=
  if 0 ≤ n then (2 * n + d) / (2 * d) else -((-(2 * n) + d) / (2 * d))

/-- Division of naturals rounded to nearest, halves up (R16). -/
def roundUpDiv (n d : Nat) : Nat := (2 * n + d) / (2 * d)

/-- A counter raised by 1 and saturating at `limit` (00, Saturation). -/
def satInc (limit n : Nat) : Nat := if n < limit then n + 1 else limit

/-- A set of bits as a number, bit 0 first (13.4). -/
def bitsNat : List Bool → Nat
  | [] => 0
  | b :: bs => (if b then 1 else 0) + 2 * bitsNat bs

/-- An optional value in a field whose absence is the field's most negative value (R200). -/
def absentField (size : Nat) (v : Option Int) : Field :=
  { size := size, value := v.getD (-(256 : Int) ^ size / 2) }

/-- An optional number in a field whose absence is 0 (R200). -/
def noneField (size : Nat) (v : Option Nat) : Field := { size := size, value := (v.getD 0 : Nat) }

/-- A flag or indicator in one byte, 0 clear and 1 set (13.7). -/
def flagField (b : Bool) : Field := { size := 1, value := if b then 1 else 0 }

/-- A number in a field of the given size. -/
def natField (size n : Nat) : Field := { size := size, value := (n : Int) }

end Sys2Proof.Machine
end

