-- ==== Sys2Proof/Machine/Flags.lean ====
section
/-! DEFINITION. The detail byte and the flag word of every record kind (13.4), and the enumerated
codes of 13.1. -/

namespace Sys2Proof.Machine

/-- Sense codes (13.1). -/
def Sense.code : Sense → Nat
  | .upper => 0
  | .lower => 1

/-- Orientation codes (13.1). -/
def Orientation.code : Orientation → Nat
  | .up => 0
  | .down => 1

/-- Run state codes (13.1). -/
def RunState.code : RunState → Nat
  | .idle => 0
  | .running => 1
  | .paused => 2

/-- Lane state codes (13.1). -/
def LaneCondition.code : LaneCondition → Nat
  | .off => 0
  | .seeking => 1
  | .locked => 2
  | .lost => 3

/-- Tachometer health codes (13.1). -/
def Health.code : Health → Nat
  | .healthy => 0
  | .failed => 1
  | .recovering => 2

/-- Mark outcome codes (13.1). -/
def MarkOutcome.code : MarkOutcome → Nat
  | .none => 0
  | .queued => 1
  | .merged => 2
  | .late => 3
  | .dropped => 4

/-- Port codes (13.1). -/
def portCode : Port → Nat
  | .p0 => 0
  | .p1 => 1
  | .p2 => 2

/-- Lane numbers (R58). -/
def laneCode : Lane → Nat
  | .sl0 => 0
  | .sl1 => 1
  | .sl2 => 2
  | .sl3 => 3

/-- Tachometer codes (13.5). -/
def tachCode : TachId → Nat
  | .a => 0
  | .b => 1

/-- Mark source codes: the tracker number c × 2 + e, or 255 for MANUAL (13.1). -/
def MarkSource.code : MarkSource → Nat
  | .tracker c e => c * 2 + e.code
  | .manual _ => 255

/-- The port field of a MARK record: 255 for a tracker (13.4). -/
def MarkSource.portField : MarkSource → Nat
  | .tracker _ _ => 255
  | .manual p => portCode p

/-- Overrun mode codes (13.1). -/
def OverrunMode.code : OverrunMode → Nat
  | .inStream => 0
  | .immediate => 1

/-- Stream state codes (13.7, Read Status). -/
def StreamState.code : StreamState → Nat
  | .none => 0
  | .active => 1
  | .pausing => 2
  | .paused => 3

/-- Link state codes (13.7, Read Status). -/
def LinkState.code : LinkState → Nat
  | .down => 0
  | .up => 1

/-- Completion code values (13.3). -/
def Completion.code : Completion → Nat
  | .ok => 0
  | .busy => 1
  | .unknownRequest => 2
  | .badLength => 3
  | .wrongState => 4
  | .notPermitted => 5
  | .invalidField => 6
  | .lostReservation => 7
  | .applyPending => 8
  | .runActive => 9
  | .accessLockout => 10
  | .outOfWindow => 11
  | .tooOld => 12
  | .pointAhead => 13
  | .queueFull => 14
  | .markingOff => 15
  | .gone => 16
  | .notYet => 17
  | .streamActive => 18
  | .noStream => 19

/-- Section numbers S0 to S5 (11.1). -/
def Section.code : Section → Nat
  | .access => 0
  | .calibration => 1
  | .sampling => 2
  | .odometry => 3
  | .limits => 4
  | .marking => 5

/-- Record kind codes (13.4). -/
def Record.kind : Record → Nat
  | .point _ => 1
  | .exceedance _ => 2
  | .urgent _ => 3
  | .mark _ => 4
  | .cls _ => 5
  | .fix _ => 6
  | .runStart _ => 7
  | .runEnd _ => 8
  | .pause _ => 9
  | .resume _ => 10

/-- The bits of a lane mask, SL0 first. -/
def PerLane.bits (m : PerLane Bool) : List Bool := [m.sl0, m.sl1, m.sl2, m.sl3]

/-- The detail byte of a record (13.4). -/
def Record.detail : Record → Nat
  | .point r => bitsNat (r.absent.bits ++ [r.late])
  | .exceedance r => r.outcome.code
  | .urgent _ | .mark _ | .cls _ | .fix _ | .runStart _ | .runEnd _ | .pause _ | .resume _ => 0

/-- Whether a mark's source is a Manual Mark. -/
def MarkSource.isManual : MarkSource → Bool
  | .tracker _ _ => false
  | .manual _ => true

/-- The flag word of a record (13.4). -/
def Record.flagWord : Record → Nat
  | .point r =>
    bitsNat [r.flags.disagreement, r.flags.conflict, r.flags.tachFailed, r.flags.overSpeed,
      r.lowSpeed, r.paused, r.corrected, r.limited, r.runFinal]
  | .exceedance r =>
    bitsNat [r.containsAbsent, r.interrupted, r.truncatedByEnd, r.truncatedByPause, r.corrected,
      r.classChanged]
  | .mark r => bitsNat [r.source.isManual, r.paused]
  | .fix r => bitsNat [r.force]
  | .urgent _ | .cls _ | .runStart _ | .runEnd _ | .pause _ | .resume _ => 0

/-- The channels of a POINT record in their numbering (5.1). -/
def Channels.list (c : Channels) : List Channel :=
  [c.gauge, c.xlevel, c.twistS, c.twistL, c.topL, c.topR, c.alignL, c.alignR]

/-- The saturation mask of a POINT record: bit c for channel c (R85, 13.4). -/
def Channels.saturationMask (c : Channels) : Nat := bitsNat (c.list.map Channel.saturated)

/-- The notice mask byte (13.3, Set Port Options). -/
def NoticeMask.byte (m : NoticeMask) : Nat := bitsNat [m.runState, m.laneState, m.tachState]

/-- The union of the tachometer flags of two sets (R69). -/
def TachFlags.union (f g : TachFlags) : TachFlags :=
  { disagreement := f.disagreement || g.disagreement, conflict := f.conflict || g.conflict
    tachFailed := f.tachFailed || g.tachFailed, overSpeed := f.overSpeed || g.overSpeed }

/-- The union of two lane masks (R69). -/
def PerLane.union (m n : PerLane Bool) : PerLane Bool :=
  ⟨m.sl0 || n.sl0, m.sl1 || n.sl1, m.sl2 || n.sl2, m.sl3 || n.sl3⟩

/-- Whether every lane of `m` is in `n`. -/
def PerLane.subset (m n : PerLane Bool) : Bool :=
  (!m.sl0 || n.sl0) && (!m.sl1 || n.sl1) && (!m.sl2 || n.sl2) && (!m.sl3 || n.sl3)

end Sys2Proof.Machine
end

