-- ==== Sys2Proof/Machine/Formats.lean ====
section
/-! DEFINITION. The byte layouts of chapter 13: records, GAP items, frames, notices and section
images. A layout is a list of fields in the order the spec lists them. -/

namespace Sys2Proof.Machine

/-- One value per section, S0 first. -/
def PerSection.list {α : Type} (v : PerSection α) : List α :=
  [v.access, v.calibration, v.sampling, v.odometry, v.limits, v.marking]

/-- The body fields of a record (13.4). -/
def Record.fields : Record → List Field
  | .point r =>
    [natField 4 r.point, natField 4 r.position, natField 2 r.speed, natField 1 r.cls,
      natField 1 r.channels.saturationMask]
      ++ r.channels.list.map (fun c => absentField 2 c.value) ++ [absentField 2 r.aux]
  | .exceedance r =>
    [natField 4 r.number, natField 1 r.channel, natField 1 r.sense.code, natField 1 r.level,
      natField 1 r.classAtPeak, natField 4 r.startPoint, natField 4 r.endPoint, natField 4 r.peakPoint,
      natField 4 r.startPosition, natField 4 r.endPosition, natField 4 r.peakPosition,
      ⟨2, r.peakValue⟩, natField 2 r.speed, natField 4 r.length]
  | .urgent r =>
    [natField 1 r.channel, natField 1 r.sense.code, natField 4 r.point, natField 4 r.position,
      ⟨2, r.value⟩]
  | .mark r =>
    [natField 4 r.point, natField 1 r.source.code, natField 1 r.source.portField, ⟨8, r.target⟩,
      ⟨8, r.travel⟩, natField 4 r.strobe.toNat]
  | .cls r =>
    [natField 4 r.point, natField 4 r.position, natField 1 r.newClass, natField 1 r.previous,
      natField 4 r.requested, natField 1 (portCode r.port)]
  | .fix r => [natField 4 r.point, natField 4 r.truePosition, ⟨8, r.error⟩, ⟨8, r.remainder⟩]
  | .runStart r =>
    [natField 1 (portCode r.port), natField 4 r.position, natField 1 r.orientation.code,
      natField 1 r.cls, natField 2 r.interval, natField 2 r.rate, natField 1 r.delay]
      ++ r.generations.list.map (fun g => natField 4 g.toNat)
  | .runEnd r =>
    [natField 1 (portCode r.port), natField 1 r.endedFrom.code, natField 4 r.base.points,
      natField 2 r.exceedances.level1, natField 2 r.exceedances.level2,
      natField 2 r.exceedances.level3, natField 2 r.exceedances.suppressed,
      natField 2 r.exceedances.urgent, natField 2 r.marks.fired, natField 2 r.marks.late,
      natField 2 r.marks.merged, natField 2 r.marks.dropped, natField 2 r.marks.discarded,
      natField 2 r.base.applied, natField 2 r.base.refused]
  | .pause r =>
    [natField 1 (portCode r.port), natField 4 r.lastGenerated, noneField 4 r.lastWritten,
      natField 1 r.closed]
  | .resume r => [natField 1 (portCode r.port), natField 4 r.lastGenerated]

/-- A record as its writer and the ring lay it out: the 12-byte header and the body (R201). -/
def RingRecord.fields (r : RingRecord) : List Field :=
  let body := r.body.fields
  [natField 1 r.body.kind, natField 1 r.body.detail, natField 2 r.body.flagWord,
    natField 4 r.sequence.toNat, natField 2 r.run, natField 2 (12 + fieldSize body)] ++ body

/-- A delivery item's bytes: a record, or a GAP item of 16 bytes (R201). -/
def DeliveryItem.fields : DeliveryItem → List Field
  | .record r => r.fields
  | .gap first lost =>
    [natField 1 15, natField 1 0, natField 2 0, natField 4 first.toNat, natField 2 0, natField 2 16,
      natField 4 lost]

/-- The code of a delivery item's frame: the record kind, or 15 for a GAP item (13.2). -/
def DeliveryItem.code : DeliveryItem → Nat
  | .record r => r.body.kind
  | .gap _ _ => 15

/-- A whole link frame: sync, type, code, tag, body length, body, CRC-16 over type through body (13.2). -/
def linkFrameBytes (type : Nat) (code : Nat) (tag : Word16) (body : List Byte) : List Byte :=
  let inner := leNat 1 type ++ leNat 1 code ++ leNat 2 tag.toNat ++ leNat 2 body.length ++ body
  leNat 1 0xC5 ++ inner ++ leNat 2 (crc16 inner).toNat

/-- The notice codes (13.5). -/
def Notice.code : Notice → Nat
  | .overrun _ _ => 1
  | .runState _ _ _ _ => 2
  | .laneState _ _ _ => 3
  | .tachState _ _ _ => 4

/-- The body of a notice (13.5). -/
def Notice.fields : Notice → List Field
  | .overrun first lost => [natField 4 first.toNat, natField 4 lost]
  | .runState previous new run port =>
    [natField 1 previous.code, natField 1 new.code, natField 2 run, natField 1 (portCode port)]
  | .laneState lane previous new =>
    [natField 1 (laneCode lane), natField 1 previous.code, natField 1 new.code]
  | .tachState x previous new =>
    [natField 1 (tachCode x), natField 1 previous.code, natField 1 new.code]

/-- A response body: the completion code, then the fields (13.1). -/
def Response.allFields (r : Response) : List Field := natField 1 r.completion.code :: r.fields

/-- The bytes of a reply-queue item's frame (13.2). -/
def ReplyItem.frame : ReplyItem → List Byte
  | .response r => linkFrameBytes 2 r.code.toNat r.tag (fieldBytes r.allFields)
  | .notice n => linkFrameBytes 4 n.code 0 (fieldBytes n.fields)
  | .readRecord tag r _ => linkFrameBytes 3 r.body.kind tag (fieldBytes r.fields)

/-- The bytes of a stream item's frame, with the stream's tag (R165, 13.2). -/
def DeliveryItem.frame (tag : Word16) (i : DeliveryItem) : List Byte :=
  linkFrameBytes 3 i.code tag (fieldBytes i.fields)

/-! ## Section images (13.6) -/

/-- A field of an image layout: its size in bytes and whether it is signed. -/
structure Slot where
  size : Nat
  signed : Bool
deriving DecidableEq, Repr

/-- An unsigned field of `n` bytes. -/
def Slot.u (n : Nat) : Slot := ⟨n, false⟩

/-- A signed field of `n` bytes. -/
def Slot.i (n : Nat) : Slot := ⟨n, true⟩

/-- The layout of a section's image (13.6). -/
def sectionLayout : Section → List Slot
  | .access => List.replicate 30 (.u 1)
  | .calibration =>
    List.replicate 4 (.u 1) ++ [.i 1, .i 2, .i 1, .i 2, .i 1, .i 2, .i 1, .i 2]
      ++ [.i 4, .i 4, .i 1, .i 4, .i 1, .i 4, .i 2, .u 4, .u 1]
  | .sampling => [.u 2, .u 2, .u 2, .u 2, .u 1, .u 1, .u 1, .u 1, .u 1]
  | .odometry => [.u 2, .u 4, .u 1, .u 1, .u 2, .u 2, .u 1, .u 1, .u 4, .u 1, .u 2]
  | .limits => List.replicate 192 (.i 2) ++ (List.replicate 8 [.u 2, .u 1, .u 1, .u 1]).flatten
  | .marking => [.u 1, .u 1, .u 2, .u 2, .u 1]

/-- The length of a section's image in bytes (13.6). -/
def imageLength (sec : Section) : Nat := ((sectionLayout sec).map Slot.size).sum

/-- The values of the fields that bytes spell under a layout (13.6). -/
def decodeSlots : List Slot → List Byte → List Int
  | [], _ => []
  | t :: ts, bytes =>
    let v := ofLe (bytes.take t.size)
    (if t.signed then signedOf t.size v else (v : Int)) :: decodeSlots ts (bytes.drop t.size)

/-- Fields of a layout with the given values. -/
def slotFields : List Slot → List Int → List Field
  | t :: ts, v :: vs => ⟨t.size, v⟩ :: slotFields ts vs
  | _, _ => []

/-- One port's permissions, in the order of the ACCESS image (13.6, 13.7). -/
def PortAccess.values (a : PortAccess) : List Bool :=
  a.commit.list ++ [a.rawRead, a.reset, a.runControl, a.position]

/-- 1 for an indicator that is set, 0 otherwise (13.6). -/
def boolInt (b : Bool) : Int := if b then 1 else 0

/-- The code of a lane mode (13.6). -/
def LaneMode.code : LaneMode → Int
  | .auto => 0
  | .forceOff => 1

/-- The fields of a rail head's calibration (13.6). -/
def HeadCalibration.values (h : HeadCalibration) : List Int :=
  [h.dPolarity, h.dOffset, h.vPolarity, h.vOffset]

/-- The field values of the CALIBRATION image, in layout order (13.6). -/
def CalibrationImage.values (c : CalibrationImage) : List Int :=
  [c.modes.sl0.code, c.modes.sl1.code, c.modes.sl2.code, c.modes.sl3.code]
    ++ c.left.values ++ c.right.values
    ++ [c.zLOffset, c.zROffset, c.wPolarity, c.wOffset, c.phiPolarity, c.phiOffset, c.g0,
      c.railDistance, c.assemblyWindow]

/-- The field values of the SAMPLING image, in layout order (13.6). -/
def SamplingImage.values (m : SamplingImage) : List Int :=
  [m.rate, m.interval, m.d0, m.d1, m.halfV, m.halfA, m.twistS, m.twistL, m.vMin]

/-- The field values of the ODOMETRY image, in layout order (13.6). -/
def OdometryImage.values (o : OdometryImage) : List Int :=
  [o.pulsesPerRev, o.circumference, o.wMin, o.tolRel, o.tolAbs, o.failDistance, boolInt o.reverse.a,
    boolInt o.reverse.b, o.fixWindow, match o.fixMode with | .step => 0 | .blend => 1, o.blendRate]

/-- The field values of the LIMITS image, in layout order (R99, 13.6). -/
def LimitsImage.values (l : LimitsImage) : List Int :=
  l.thresholds.map (fun t => t.getD (-32768))
    ++ (l.params.map (fun p => ([(p.hysteresis : Int), (p.closeCount : Int), (p.minLength : Int),
      (p.absentRun : Int)] : List Int))).flatten

/-- The field values of the MARKING image, in layout order (13.6). -/
def MarkingImage.values (m : MarkingImage) : List Int :=
  [boolInt m.enable, m.trigger, m.offset, m.merge, m.pulse]

/-- The field values of a section's committed image. -/
def Images.values (i : Images) : Section → List Int
  | .access => (i.access.p0 ++ i.access.p1 ++ i.access.p2).map (fun b => (b.toNat : Int))
  | .calibration => i.calibration.values
  | .sampling => i.sampling.values
  | .odometry => i.odometry.values
  | .limits => i.limits.values
  | .marking => i.marking.values

/-- The fields of a section's committed image, as Read Settings returns it (13.6). -/
def Images.fields (i : Images) (sec : Section) : List Field :=
  slotFields (sectionLayout sec) (i.values sec)

/-- The permissions of one port from its ten bytes (13.6: 0 not held, other held). -/
def portAccessOf (v : List Byte) : PortAccess :=
  let held (k : Nat) : Bool := v.getD k 0 != 0
  { commit := ⟨held 0, held 1, held 2, held 3, held 4, held 5⟩
    rawRead := held 6, reset := held 7, runControl := held 8, position := held 9 }

/-- The lane mode a field value spells (13.6). -/
def laneModeOf (v : Int) : LaneMode := if v = 1 then .forceOff else .auto

/-- The calibration of a rail head from four field values (13.6). -/
def headOf (v : List Int) : HeadCalibration :=
  { dPolarity := v.getD 0 0, dOffset := v.getD 1 0, vPolarity := v.getD 2 0, vOffset := v.getD 3 0 }

/-- The CALIBRATION image that field values spell (13.6). -/
def calibrationOf (v : List Int) : CalibrationImage :=
  { modes := ⟨laneModeOf (v.getD 0 0), laneModeOf (v.getD 1 0), laneModeOf (v.getD 2 0),
      laneModeOf (v.getD 3 0)⟩
    left := headOf (v.drop 4), right := headOf (v.drop 8)
    zLOffset := v.getD 12 0, zROffset := v.getD 13 0, wPolarity := v.getD 14 0
    wOffset := v.getD 15 0, phiPolarity := v.getD 16 0, phiOffset := v.getD 17 0
    g0 := v.getD 18 0, railDistance := v.getD 19 0, assemblyWindow := (v.getD 20 0).toNat }

/-- The SAMPLING image that field values spell (13.6). -/
def samplingOf (v : List Int) : SamplingImage :=
  let n (k : Nat) : Nat := (v.getD k 0).toNat
  { rate := n 0, interval := n 1, d0 := n 2, d1 := n 3, halfV := n 4, halfA := n 5, twistS := n 6
    twistL := n 7, vMin := n 8 }

/-- The ODOMETRY image that field values spell (13.6). -/
def odometryOf (v : List Int) : OdometryImage :=
  let n (k : Nat) : Nat := (v.getD k 0).toNat
  { pulsesPerRev := n 0, circumference := n 1, wMin := n 2, tolRel := n 3, tolAbs := n 4
    failDistance := n 5, reverse := ⟨n 6 == 1, n 7 == 1⟩, fixWindow := n 8
    fixMode := if n 9 = 1 then .blend else .step, blendRate := n 10 }

/-- A threshold from its field value (R99: −32768 encodes absent). -/
def thresholdOf (v : Int) : Option Int := if v = -32768 then none else some v

/-- The parameters of channel `c` from the LIMITS field values (R99). -/
def paramsOf (v : List Int) (c : Nat) : ChannelParams :=
  let n (k : Nat) : Nat := (v.getD (192 + c * 4 + k) 0).toNat
  { hysteresis := n 0, closeCount := n 1, minLength := n 2, absentRun := n 3 }

/-- The LIMITS image that field values spell (R99). -/
def limitsOf (v : List Int) : LimitsImage :=
  { thresholds := (v.take 192).map thresholdOf
    params := [paramsOf v 0, paramsOf v 1, paramsOf v 2, paramsOf v 3, paramsOf v 4, paramsOf v 5,
      paramsOf v 6, paramsOf v 7] }

/-- The MARKING image that field values spell (13.6). -/
def markingOf (v : List Int) : MarkingImage :=
  let n (k : Nat) : Nat := (v.getD k 0).toNat
  { enable := n 0 == 1, trigger := n 1, offset := n 2, merge := n 3, pulse := n 4 }

/-- The ACCESS image that field values spell: ten bytes for each port (13.6). -/
def accessOf (v : List Int) : PerPort (List Byte) :=
  let bytes := v.map (fun x => BitVec.ofInt 8 x)
  ⟨bytes.take 10, (bytes.drop 10).take 10, (bytes.drop 20).take 10⟩

/-! ## Validity of images (R176, R100) -/

/-- Whether a value lies in a range, both ends included (00, Ranges). -/
def inRange (lo hi v : Int) : Bool := decide (lo ≤ v) && decide (v ≤ hi)

/-- Whether a value is a polarity (13.6). -/
def isPolarity (v : Int) : Bool := v == 1 || v == -1

/-- The test of each field of an image but LIMITS, in layout order (R176, with the ranges of the
owning chapters). An ACCESS field is never bad. -/
def fieldTests : Section → List (Int → Bool)
  | .access | .limits => []
  | .calibration =>
    List.replicate 4 (inRange 0 1)
      ++ [isPolarity, inRange (-5000) 5000, isPolarity, inRange (-5000) 5000]
      ++ [isPolarity, inRange (-5000) 5000, isPolarity, inRange (-5000) 5000]
      ++ [inRange (-100000) 100000, inRange (-100000) 100000, isPolarity, inRange (-100000) 100000,
        isPolarity, inRange (-100000) 100000, inRange (-5000) 5000, inRange 140000 170000, inRange 1 8]
  | .sampling =>
    [fun v => v == 1000 || v == 2000 || v == 4000,
      fun v => v == 100 || v == 200 || v == 250 || v == 500,
      inRange 1 4000, inRange 1 4000, inRange 1 64, inRange 1 64, inRange 1 128, inRange 1 128,
      inRange 5 60]
  | .odometry =>
    [inRange 100 10000, inRange 500000 5000000, inRange 1 255, inRange 1 200, inRange 0 50000,
      inRange 500 20000, inRange 0 1, inRange 0 1, inRange 100 1000000, inRange 0 1, inRange 1 1000]
  | .marking => [inRange 0 1, inRange 2 3, inRange 0 50000, inRange 0 10000, inRange 5 200]

/-- The lowest index at which a test fails, counting from `k`. -/
def firstFailing : Nat → List (Int → Bool) → List Int → Option Nat
  | k, t :: ts, v :: vs => if t v then firstFailing (k + 1) ts vs else some k
  | _, _, _ => none

/-- The field index of a threshold (R99). -/
def thresholdIndex (channel cls : Nat) (sense : Sense) (level : Nat) : Nat :=
  ((channel * 4 + cls) * 2 + sense.code) * 3 + (level - 1)

/-- The present threshold at a field index of the LIMITS field values. -/
def thresholdAt (v : List Int) (i : Nat) : Option Int := thresholdOf (v.getD i (-32768))

/-- The nearest present threshold of a lower level of the same class and sense (R100): for level 2
that of level 1, for level 3 that of level 2 or, when it is absent, of level 1. -/
def previousThreshold (v : List Int) (i : Nat) : Option Int :=
  if i % 3 = 0 then none
  else if i % 3 = 1 then thresholdAt v (i - 1)
  else match thresholdAt v (i - 1) with
    | some t => some t
    | none => thresholdAt v (i - 2)

/-- Whether the threshold field `i` is bad (R100, checks 2 to 4). Index i / 3 is even for the upper
sense and odd for the lower. -/
def badThreshold (v : List Int) (i : Nat) : Bool :=
  match thresholdAt v i with
  | none => false
  | some t =>
    let lower := i / 3 % 2 == 1
    let order := match previousThreshold v i with
      | none => false
      | some q => if lower then decide (q < t) else decide (t < q)
    let levelOne := lower && i % 3 == 0 &&
      match thresholdAt v (i - 3) with
      | none => false
      | some u => decide (u ≤ t)
    order || levelOne

/-- Whether the parameter field `i` of the LIMITS image is bad (R100, check 1). -/
def badParameter (v : List Int) (i : Nat) : Bool :=
  let x := v.getD i 0
  match (i - 192) % 4 with
  | 0 => !inRange 0 1000 x
  | 1 => !inRange 1 16 x
  | 2 => !inRange 0 64 x
  | _ => !inRange 1 255 x

/-- The lowest bad field of a LIMITS image (R100), looking at `n` fields from index `i`. -/
def firstBadLimit (v : List Int) : Nat → Nat → Option Nat
  | _, 0 => none
  | i, n + 1 =>
    if (if i < 192 then badThreshold v i else badParameter v i) then some i
    else firstBadLimit v (i + 1) n

/-- The first bad field of an image, if any (R176). -/
def firstBadField (sec : Section) (v : List Int) : Option Nat :=
  match sec with
  | .limits => firstBadLimit v 0 224
  | _ => firstFailing 0 (fieldTests sec) v

end Sys2Proof.Machine
end

