-- ==== Sys2Proof/Machine/Blocks.lean ====
section
/-! DEFINITION. The state each block of the part owns, one structure for each block (00, Block
overview). Machine/State.lean puts them together. -/

namespace Sys2Proof.Machine

/-- The tachometer unit (R21). `rateChanged` records an installed rate change since the last strobe
(R17). -/
structure TachUnit where
  units : PerTach Tach
  disagreements : Nat
  conflicts : Nat
  net : Int
  window : List Int
  speed : Nat
  rateChanged : Bool
deriving DecidableEq, Repr

/-- The strobe generator: the number of the latest strobe, the period now running in µs, and the byte
that the latest strobe carries on SS (R42). -/
structure StrobeGenerator where
  number : Word32
  period : Nat
  ss : Byte
deriving DecidableEq, Repr

/-- The lane receivers, the sample sets they own and the list of recent sets (03, 04). -/
structure LaneUnit where
  lane : PerLane LaneReceiver
  latePending : Bool
  recent : List RecentSet
  sets : List SampleSet
deriving DecidableEq, Repr

/-- The spatial resampler: the held set (4.4). -/
structure Resampler where
  held : Option SampleSet
deriving DecidableEq, Repr

/-- The distance base (02, state table). `inbox` holds the strobe items handed on and not yet taken,
`net` the net travel of the latest strobe taken (log 7), `out` the FIX records not yet appended. -/
structure DistanceBase where
  inbox : List StrobeItems
  n0 : Int
  net : Int
  high : Int
  last : Nat
  queue : List PointEntry
  offset : Int
  orientation : Orientation
  correction : Int
  fixesApplied : Nat
  fixesRefused : Nat
  ds : DsOutputs
  running : Bool
  out : List WaitingFix
deriving DecidableEq, Repr

/-- The geometry unit (5.2). `inbox` holds the spatial samples handed on and not yet taken, `out` the
POINT records not yet appended; `flushLeft` counts the appends still to come before a flush is
reported finished (R90); `endFlush` is held while the samples at a Run End are taken, and says whether
the drain gave any (R94). -/
structure GeometryUnit where
  inbox : List SpatialSample
  window : List WindowSample
  segStart : Option Nat
  segOpen : Bool
  history : List HistoryPair
  pendingCount : Nat
  lastWritten : Option Nat
  out : List PointRecord
  flushLeft : Option Nat
  endFlush : Option Bool
deriving DecidableEq, Repr

/-- The exceedance unit (06 and 07, state tables). `trackers` are in tracker order (7.1); `truncation`
is a truncation handled whole and not yet reported finished (R129); `turn` is the evaluation or the
truncation in progress (R114, R115, R129). -/
structure ExceedanceUnit where
  trackers : List Tracker
  evalList : List EvalItem
  number : Nat
  counts : ExceedanceCounts
  cls : Nat
  classQueue : List ClassEntry
  evaluated : Nat
  out : List Record
  turn : Option Turn
  truncation : Option TruncationReport
deriving DecidableEq, Repr

/-- The marking unit (08, state table). `line` is the moment at which the pulse on MK ends, or `none`
while MK is inactive. -/
structure MarkingUnit where
  queue : List MarkEntry
  rm : Int
  line : Option Nat
  counts : MarkCounts
  out : List Record
deriving DecidableEq, Repr

/-- Run control (09, state table). -/
structure RunControl where
  state : RunState
  number : Nat
  op : Option Operation
  closing : Bool
  summary : Summary
  out : List Record
deriving DecidableEq, Repr

/-- The record ring's shared state (10, state table). `rotation` is the writer granted last, `granted`
the writer whose record has been granted and not yet appended (R163). -/
structure Ring where
  contents : List RingRecord
  head : Word32
  oldest : Word32
  rotation : Writer
  granted : Option Writer
deriving DecidableEq, Repr

/-- The settings store with the installed images of the two sections that can be staged (11). While
a staged indicator is set, the committed image is the staged one. -/
structure Store where
  committed : Images
  installedCal : CalibrationImage
  installedLim : LimitsImage
  generations : PerSection Word32
  stagedCal : Bool
  stagedLim : Bool
deriving DecidableEq, Repr

end Sys2Proof.Machine
end

