-- ==== Sys2Proof/Machine/Defaults.lean ====
section
/-! DEFINITION. The default image of each settings section, loaded at the reset line (R185). -/

namespace Sys2Proof.Machine

/-- One value for every section. -/
def PerSection.all {α : Type} (v : α) : PerSection α := ⟨v, v, v, v, v, v⟩

/-- One value for every port. -/
def PerPort.all {α : Type} (v : α) : PerPort α := ⟨v, v, v⟩

/-- One value for every lane. -/
def PerLane.all {α : Type} (v : α) : PerLane α := ⟨v, v, v, v⟩

/-- One value for both tachometers. -/
def PerTach.all {α : Type} (v : α) : PerTach α := ⟨v, v⟩

/-- Every permission held (R182). 13.6 gives a held permission any byte but 0; the default image's
byte is 1 (DESIGN CHOICE, log 13). -/
def defaultPortAccess : List Byte := List.replicate 10 1

/-- The default calibration of a rail head (03, settings table). -/
def defaultHead : HeadCalibration := { dPolarity := 1, dOffset := 0, vPolarity := 1, vOffset := 0 }

/-- The default CALIBRATION image (03, 4.1 and 5.1). -/
def defaultCalibration : CalibrationImage :=
  { modes := .all .auto, left := defaultHead, right := defaultHead
    zLOffset := 0, zROffset := 0, wPolarity := 1, wOffset := 0, phiPolarity := 1, phiOffset := 0
    g0 := 0, railDistance := 150000, assemblyWindow := 4 }

/-- The default SAMPLING image (02, 03 and 5.1). -/
def defaultSampling : SamplingImage :=
  { rate := 2000, interval := 250, d0 := 1, d1 := 4, halfV := 20, halfA := 20
    twistS := 12, twistL := 40, vMin := 20 }

/-- The default ODOMETRY image (01 and 02, settings tables). -/
def defaultOdometry : OdometryImage :=
  { pulsesPerRev := 1000, circumference := 2890000, wMin := 4, tolRel := 50, tolAbs := 1000
    failDistance := 2000, reverse := .all false, fixWindow := 50000, fixMode := .step, blendRate := 10 }

/-- The default parameters of a channel (R98). -/
def defaultParams : ChannelParams := { hysteresis := 50, closeCount := 4, minLength := 0, absentRun := 20 }

/-- The default LIMITS image: every threshold absent, every parameter at its default (R98). -/
def defaultLimits : LimitsImage :=
  { thresholds := List.replicate 192 none, params := List.replicate 8 defaultParams }

/-- The default MARKING image (08, settings table). -/
def defaultMarking : MarkingImage :=
  { enable := false, trigger := 3, offset := 15000, merge := 2000, pulse := 40 }

/-- The default images of all sections (R185). -/
def defaultImages : Images :=
  { access := .all defaultPortAccess, calibration := defaultCalibration, sampling := defaultSampling
    odometry := defaultOdometry, limits := defaultLimits, marking := defaultMarking }

end Sys2Proof.Machine
end

