-- ==== Sys2Proof/Machine/ResetValues.lean ====
section
/-! DEFINITION. The value each block takes at a reset, before strobe 0 is issued (R21, R41, R60, R74,
R97, R112, R136, R147, R160, R174, R185, R199). Fields marked "model" in INVENTORY.md, for which
the spec gives no value, take the one of log 21 (DESIGN CHOICE). -/

namespace Sys2Proof.Machine

/-- The strobe period of a sample rate, in µs (R42). -/
def strobePeriod (rate : Nat) : Nat := 1000000 / rate

/-- A tachometer after reset (R21). -/
def resetTach : Tach :=
  { pulses := 0, latched := 0, seen := false, health := .healthy, silent := 0, recovery := 0
    glitches := 0, candidate := none }

/-- The tachometer unit after reset (R21). -/
def resetTachUnit : TachUnit :=
  { units := .all resetTach, disagreements := 0, conflicts := 0, net := 0, window := [0], speed := 0
    rateChanged := false }

/-- A lane receiver after reset under a lane mode (R60). -/
def resetReceiver (mode : LaneMode) : LaneReceiver :=
  { state := match mode with | .auto => .seeking | .forceOff => .off
    hits := 0, misses := 0, live := false, sticky := .all false, errors := 0, late := 0, missing := 0
    accepted := 0, last := none }

/-- The lane receivers after reset, with no set and no recent set (R60, R74). -/
def resetLaneUnit (modes : PerLane LaneMode) : LaneUnit :=
  { lane := ⟨resetReceiver modes.sl0, resetReceiver modes.sl1, resetReceiver modes.sl2,
      resetReceiver modes.sl3⟩
    latePending := false, recent := [], sets := [] }

/-- The resampler after reset (R74). -/
def resetResampler : Resampler := { held := none }

/-- The distance base after reset (R41). -/
def resetBase : DistanceBase :=
  { inbox := [], n0 := 0, net := 0, high := 0, last := 0, queue := [], offset := 0, orientation := .up
    correction := 0, fixesApplied := 0, fixesRefused := 0, ds := { ds0 := .inactive, ds1 := .inactive, due := [] }
    running := false, out := [] }

/-- The geometry unit after reset (R97). -/
def resetGeometry : GeometryUnit :=
  { inbox := [], window := [], segStart := none, segOpen := false, history := [], pendingCount := 0
    lastWritten := none, out := [], flushLeft := none, endFlush := none }

/-- The run counts at 0 (R132, R136). -/
def zeroCounts : ExceedanceCounts := { level1 := 0, level2 := 0, level3 := 0, suppressed := 0, urgent := 0 }

/-- The mark counts at 0 (R145, R147). -/
def zeroMarks : MarkCounts := { queued := 0, fired := 0, late := 0, merged := 0, dropped := 0, discarded := 0 }

/-- The sixteen trackers, CLEAR (R113). -/
def clearTrackers : List Tracker := List.replicate 16 none

/-- The exceedance unit after reset (R112, R136). -/
def resetExceedance : ExceedanceUnit :=
  { trackers := clearTrackers, evalList := [], number := 0, counts := zeroCounts, cls := 0
    classQueue := [], evaluated := 0, out := [], turn := none, truncation := none }

/-- The marking unit after reset (R147). -/
def resetMarking : MarkingUnit := { queue := [], rm := 0, line := none, counts := zeroMarks, out := [] }

/-- The empty pending summary (R160). -/
def emptySummary : Summary := { exceedances := none, marks := none, base := none }

/-- Run control after reset (R160). -/
def resetRun : RunControl :=
  { state := .idle, number := 0, op := none, closing := false, summary := emptySummary, out := [] }

/-- The ring after reset: empty, the geometry unit first in the rotation (R174). -/
def resetRing : Ring := { contents := [], head := 0, oldest := 0, rotation := .runControl, granted := none }

/-- The settings store after the reset line (R185). -/
def resetStore : Store :=
  { committed := defaultImages, installedCal := defaultCalibration, installedLim := defaultLimits
    generations := .all 0, stagedCal := false, stagedLim := false }

/-- The filter after reset: every bit of the kinds 1 to 10 set (R174). -/
def resetFilter : Word16 := 0x07FE

/-- A port after reset, with the link state the reset gives it (R174, R185, R199). -/
def resetPort (link : LinkState) : PortState :=
  { link := link, framing := 0, crc := 0, requests := [], replies := [], discarded := 0
    stream := .none, streamTag := 0, pendingPause := none
    mask := { runState := false, laneState := false, tachState := false }
    overrun := .inStream, cursor := 0, filter := resetFilter, decimation := 1, txQueue := []
    readJob := none, tx := none, reservation := none, await := none }

end Sys2Proof.Machine
end

