-- ==== Sys2Proof/Machine/State.lean ====
section
/-! DEFINITION. The machine's state: every block's state, the queue of waiting commands, and the
reasons a step can stop. -/

namespace Sys2Proof.Machine

/-- Reasons for which the part stops. The spec names none: every bad input is counted, flagged or
answered with a completion code, so no meaning raises a fault. -/
inductive Fault where
deriving DecidableEq

/-- Reasons for which a command is refused. -/
inductive Refusal where
  /-- Raised by `exec`'s arm of a command that has no meaning yet; safe: the model stops where the
  part would go on. -/
  | notModelled (mnemonic : String)
deriving DecidableEq, Repr

/-- The state of the part. `pending` is the queue of commands waiting, first in, first out (log 1);
`time` is the moment of the latest strobe since reset, in µs (log 3); `resetPending` is the port
whose accepted Reset Part has not been applied yet (R198). -/
structure State where
  pending : List Instr
  time : Nat
  tach : TachUnit
  strobe : StrobeGenerator
  lanes : LaneUnit
  resampler : Resampler
  base : DistanceBase
  geo : GeometryUnit
  exc : ExceedanceUnit
  marking : MarkingUnit
  run : RunControl
  ring : Ring
  store : Store
  ports : PerPort PortState
  resetPending : Option Port
deriving DecidableEq, Repr

/-- The items of strobe 0: its increments are 0 (R42). -/
def strobeZeroItems : StrobeItems :=
  { strobe := 0, delta := 0, net := 0, speed := 0
    flags := { disagreement := false, conflict := false, tachFailed := false, overSpeed := false } }

/-- Set 0, opened by strobe 0 and awaiting every lane (R61, R74). -/
def setZero : SampleSet :=
  { strobe := 0, condition := .opened, awaited := .all true, items := some strobeZeroItems
    slots := .all none
    values := { dL := none, vL := none, dR := none, vR := none, zL := none, zR := none, w := none
                phi := none, aux := none }
    absent := .all false, late := false }

/-- The part right after the reset line. Every block has its value after reset; strobe 0, issued as
the reset ends (R42, R60), has been taken by the tachometer unit, whose speed window then holds N_0
beside the entry of the reset (R16, R17), and by the lane receivers, which have opened set 0; the
items of strobe 0 wait for the distance base (log 6). -/
def State.reset : State :=
  { pending := []
    time := 0
    tach := { resetTachUnit with window := [0, 0] }
    strobe := { number := 0, period := 500, ss := 0 }
    lanes := { resetLaneUnit defaultCalibration.modes with sets := [setZero] }
    resampler := resetResampler
    base := { resetBase with inbox := [strobeZeroItems] }
    geo := resetGeometry
    exc := resetExceedance
    marking := resetMarking
    run := resetRun
    ring := resetRing
    store := resetStore
    ports := .all (resetPort .down)
    resetPending := none }

end Sys2Proof.Machine
end

