-- ==== Sys2Proof/Machine/Ops.lean ====
section
/-! DEFINITION. Operations the commands share: reading and writing one port's, lane's, tachometer's
or section's part of the state, placing replies and notices (R194, R195), refilling a stream (R166 to
R168), the grant of the append port (R163), and dispatching a request (R189, R190). -/

namespace Sys2Proof.Machine

/-! ## Families of values -/

/-- The value of a port. -/
def PerPort.get {α : Type} (v : PerPort α) : Port → α
  | .p0 => v.p0
  | .p1 => v.p1
  | .p2 => v.p2

/-- `v` with the value of one port replaced. -/
def PerPort.set {α : Type} (v : PerPort α) (p : Port) (x : α) : PerPort α :=
  match p with
  | .p0 => { v with p0 := x }
  | .p1 => { v with p1 := x }
  | .p2 => { v with p2 := x }

/-- `f` applied to every port's value. -/
def PerPort.map {α β : Type} (f : α → β) (v : PerPort α) : PerPort β := ⟨f v.p0, f v.p1, f v.p2⟩

/-- The value of a lane. -/
def PerLane.get {α : Type} (v : PerLane α) : Lane → α
  | .sl0 => v.sl0
  | .sl1 => v.sl1
  | .sl2 => v.sl2
  | .sl3 => v.sl3

/-- `v` with the value of one lane replaced. -/
def PerLane.set {α : Type} (v : PerLane α) (l : Lane) (x : α) : PerLane α :=
  match l with
  | .sl0 => { v with sl0 := x }
  | .sl1 => { v with sl1 := x }
  | .sl2 => { v with sl2 := x }
  | .sl3 => { v with sl3 := x }

/-- `f` applied to every lane's value. -/
def PerLane.map {α β : Type} (f : α → β) (v : PerLane α) : PerLane β :=
  ⟨f v.sl0, f v.sl1, f v.sl2, f v.sl3⟩

/-- The value of a tachometer. -/
def PerTach.get {α : Type} (v : PerTach α) : TachId → α
  | .a => v.a
  | .b => v.b

/-- `v` with the value of one tachometer replaced. -/
def PerTach.set {α : Type} (v : PerTach α) (x : TachId) (y : α) : PerTach α :=
  match x with
  | .a => { v with a := y }
  | .b => { v with b := y }

/-- The value of a section. -/
def PerSection.get {α : Type} (v : PerSection α) : Section → α
  | .access => v.access
  | .calibration => v.calibration
  | .sampling => v.sampling
  | .odometry => v.odometry
  | .limits => v.limits
  | .marking => v.marking

/-- `v` with the value of one section replaced. -/
def PerSection.set {α : Type} (v : PerSection α) (sec : Section) (x : α) : PerSection α :=
  match sec with
  | .access => { v with access := x }
  | .calibration => { v with calibration := x }
  | .sampling => { v with sampling := x }
  | .odometry => { v with odometry := x }
  | .limits => { v with limits := x }
  | .marking => { v with marking := x }

/-- `s` with the state of one port changed by `f`. -/
def State.modPort (s : State) (p : Port) (f : PortState → PortState) : State :=
  { s with ports := s.ports.set p (f (s.ports.get p)) }

/-! ## The transmitter and the reply queue (R194) -/

/-- Whether a reply-queue item is a read-record frame with more records of its read list to come. -/
def ReplyItem.hasMore : ReplyItem → Bool
  | .readRecord _ _ last => !last
  | .response _ | .notice _ => false

/-- The OK response that ends a Read Records, with the number of records sent (R171, 13.7). -/
def readRecordsResponse (tag : Word16) (count : Nat) : Response :=
  { code := 18, tag := tag, completion := .ok, fields := [natField 2 count] }

/-- Place the next record frame of the Read Records under execution, if there is one. After the last
of them its OK response is placed, and the request leaves the request queue (R171, R189, R194; the
moment of the OK is log 11). -/
def PortState.readNext (q : PortState) : PortState :=
  match q.readJob with
  | none => q
  | some job =>
    match job.remaining with
    | [] => q
    | [r] =>
      { q with
        replies := q.replies
          ++ [.readRecord job.tag r true, .response (readRecordsResponse job.tag job.count)]
        requests := q.requests.tail
        readJob := none }
    | r :: rest =>
      { q with
        replies := q.replies ++ [.readRecord job.tag r false]
        readJob := some { job with remaining := rest } }

/-- When the transmitter is free it takes the front of the reply queue if that holds anything, and
the front item of the transmit queue otherwise (R194). A reply leaves its queue when it is taken
(log 10); a stream item keeps its place until it has been sent whole (R165). -/
def PortState.kick (q : PortState) : PortState :=
  match q.tx with
  | some _ => q
  | none =>
    match q.replies with
    | i :: rest =>
      let taken := { q with replies := rest, tx := some { what := .reply i, frame := i.frame } }
      if i.hasMore then taken.readNext else taken
    | [] =>
      match q.txQueue with
      | i :: _ => { q with tx := some { what := .stream i, frame := i.frame q.streamTag } }
      | [] => q

/-- Place an item at the back of the reply queue; on a DOWN link it is discarded at once (R187,
R194). A free transmitter takes it. -/
def PortState.place (q : PortState) (i : ReplyItem) : PortState :=
  match q.link with
  | .down => q
  | .up => { q with replies := q.replies ++ [i] }.kick

/-- Place a response (R190). -/
def PortState.respond (q : PortState) (code : Byte) (tag : Word16) (c : Completion)
    (fields : List Field) : PortState :=
  q.place (.response { code := code, tag := tag, completion := c, fields := fields })

/-- Whether a port's notice mask enables a notice; an OVERRUN notice is not subject to it (R195). -/
def NoticeMask.enables (m : NoticeMask) : Notice → Bool
  | .overrun _ _ => true
  | .runState _ _ _ _ => m.runState
  | .laneState _ _ _ => m.laneState
  | .tachState _ _ _ => m.tachState

/-- Offer a RUN_STATE, LANE_STATE or TACH_STATE notice to a port: it is placed when the link is UP,
the mask enables it and the reply queue holds fewer than 16 items; for lack of room it is discarded
and counted (R194, R195). -/
def PortState.offer (q : PortState) (n : Notice) : PortState :=
  if q.link = .up ∧ q.mask.enables n then
    if q.replies.length < Config.replyRoom then q.place (.notice n)
    else { q with discarded := satInc 65535 q.discarded }
  else q

/-- Offer a notice to every port (R195). -/
def State.offer (s : State) (n : Notice) : State :=
  { s with ports := s.ports.map (fun q => q.offer n) }

/-- Offer notices to every port, in order. -/
def State.offerAll (s : State) (ns : List Notice) : State := ns.foldl State.offer s

/-! ## The ring's tests and refills (R162, R166 to R168) -/

/-- The number of records present: (head − oldest) mod 2^32 (R161). -/
def Ring.present (r : Ring) : Nat := (r.head - r.oldest).toNat

/-- Whether sequence number `n` is present (R162). -/
def Ring.isPresent (r : Ring) (n : Word32) : Bool := decide ((n - r.oldest).toNat < r.present)

/-- Whether `n` is ahead (R162). -/
def Ring.isAhead (r : Ring) (n : Word32) : Bool :=
  !r.isPresent n && decide (1 ≤ (n - r.head).toNat) && decide ((n - r.head).toNat ≤ 2 ^ 31 - 1)

/-- Whether `n` is gone (R162). -/
def Ring.isGone (r : Ring) (n : Word32) : Bool := !r.isPresent n && n != r.head && !r.isAhead n

/-- Whether a cursor is behind (R162). -/
def Ring.isBehind (r : Ring) (cursor : Word32) : Bool :=
  decide (r.present < (r.head - cursor).toNat)

/-- The lost count of a cursor: 0 for a cursor that is not behind (R162). -/
def Ring.lostCount (r : Ring) (cursor : Word32) : Nat :=
  if r.isBehind cursor then (r.oldest - cursor).toNat else 0

/-- The records present from sequence number `n` on, for `n` present or at the head. -/
def Ring.recordsFrom (r : Ring) (n : Word32) : List RingRecord :=
  r.contents.drop (n - r.oldest).toNat

/-- The point number of a POINT record. -/
def Record.pointNumber? : Record → Option Nat
  | .point r => some r.point
  | _ => none

/-- Whether a record passes a port's filter and decimation (R166). -/
def PortState.passes (q : PortState) (r : RingRecord) : Bool :=
  q.filter.getLsbD r.body.kind &&
    match r.body.pointNumber? with
    | some j => j % q.decimation == 0
    | none => true

/-- An overrun, recognized at a cursor that is behind: the cursor moves to the oldest record and the
loss is indicated as the port's overrun mode says (R168). -/
def PortState.overrunAt (q : PortState) (r : Ring) : PortState :=
  let first := q.cursor
  let lost := r.lostCount q.cursor
  let moved := { q with cursor := r.oldest }
  match q.overrun with
  | .inStream => { moved with txQueue := moved.txQueue ++ [.gap first lost] }
  | .immediate => moved.place (.notice (.overrun first lost))

/-- The repetition of a refill over the records from the cursor on: while the queue has a free place,
a record that passes is copied into it and the cursor moves on (step 2 of R167). -/
def PortState.fill (q : PortState) : List RingRecord → PortState
  | [] => q
  | r :: rest =>
    if q.txQueue.length < Config.transmitCapacity then
      let q' := { q with cursor := q.cursor + 1 }
      (if q.passes r then { q' with txQueue := q'.txQueue ++ [.record r] } else q').fill rest
    else q

/-- A refill, made while the stream is ACTIVE, before the transmitter looks at the queues (R167). -/
def PortState.refillQueue (q : PortState) (r : Ring) : PortState :=
  if q.stream = .active ∧ q.txQueue.length < Config.transmitCapacity ∧ q.cursor ≠ r.head then
    let q' := if r.isBehind q.cursor then q.overrunAt r else q
    q'.fill (r.recordsFrom q'.cursor)
  else q

/-- A refill (R167), after which a free transmitter takes its next frame (R194). -/
def PortState.refill (q : PortState) (r : Ring) : PortState := (q.refillQueue r).kick

/-! ## The append port (R163) -/

/-- The writer after a writer in the rotation (R163). -/
def Writer.next : Writer → Writer
  | .geometry => .exceedance
  | .exceedance => .marking
  | .marking => .base
  | .base => .runControl
  | .runControl => .geometry

/-- The FIX record that the distance base has at the append port: its oldest, once every record it stands
behind has been appended (R34, R150, R164; log 9). -/
def DistanceBase.waiting (b : DistanceBase) : Option Record :=
  match b.out with
  | [] => none
  | w :: _ => if w.behind = 0 ∧ w.behindStart = false then some (.fix w.record) else none

/-- The record that a writer has waiting at the append port, if any (R163; log 8). -/
def State.waiting (s : State) : Writer → Option Record
  | .geometry => s.geo.out.head?.map .point
  | .exceedance => s.exc.out.head?
  | .marking => s.marking.out.head?
  | .base => s.base.waiting
  | .runControl => s.run.out.head?

/-- The first waiting writer among the `n` writers from `w` on (R163). -/
def State.firstWaiting (s : State) : Nat → Writer → Option Writer
  | 0, _ => none
  | n + 1, w => if (s.waiting w).isSome then some w else s.firstWaiting n w.next

/-- The writer whose record the append port has granted: the one granted before, or, where none is, the
first waiting writer after the one recorded in the rotation (R163). -/
def State.nextGrant (s : State) : Option Writer :=
  match s.ring.granted with
  | some w => some w
  | none => s.firstWaiting 5 s.ring.rotation.next

/-- The append port after records may have been handed to it: with none being appended it grants one, a
record that waits alone at once and of several one by the rotation (R163; log 32). -/
def State.grant (s : State) : State := { s with ring := { s.ring with granted := s.nextGrant } }

/-! ## Requests (R189, R190) -/

/-- Whether a request of the port is under execution or dispatching is stopped (R189, R198). -/
def State.dispatchBlocked (s : State) (p : Port) : Bool :=
  s.resetPending.isSome || (s.ports.get p).readJob.isSome

/-- The oldest request of the port, when it can be dispatched and carries the given code (R189). -/
def State.frontRequest (s : State) (p : Port) (code : Nat) : Option Request :=
  if s.dispatchBlocked p then none
  else match (s.ports.get p).requests with
    | r :: _ => if r.code.toNat = code then some r else none
    | [] => none

/-- The execution of the port's front request ends without a response now (R189). -/
def State.finishRequest (s : State) (p : Port) : State :=
  s.modPort p (fun q => { q with requests := q.requests.tail })

/-- The execution of the port's front request ends as its response is placed (R189, R190). -/
def State.answer (s : State) (p : Port) (r : Request) (c : Completion) (fields : List Field) : State :=
  (s.finishRequest p).modPort p (fun q => q.respond r.code r.tag c fields)

/-- An OK answer with the fields of 13.7. -/
def State.answerOk (s : State) (p : Port) (r : Request) (fields : List Field) : State :=
  s.answer p r .ok fields

/-- A refusal that carries its completion code alone (R200). -/
def State.refuse (s : State) (p : Port) (r : Request) (c : Completion) : State := s.answer p r c []

/-- A refusal with INVALID_FIELD and a field index (R200). -/
def State.refuseField (s : State) (p : Port) (r : Request) (index : Nat) : State :=
  s.answer p r .invalidField [natField 2 index]

/-- Dispatch of the port's front request with the given code and body length: a wrong length is
answered with BAD_LENGTH (R190), and otherwise the owning block executes the request. When no such
request can be dispatched nothing happens (log 2). -/
def State.serve (s : State) (p : Port) (code length : Nat) (execute : Request → State) : State :=
  match s.frontRequest p code with
  | none => s
  | some r => if r.body.length = length then execute r else s.refuse p r .badLength

/-- Whether a port holds the commit permission for ACCESS in an ACCESS image (R182). -/
def holdsAccess (image : PerPort (List Byte)) (p : Port) : Bool :=
  (portAccessOf (image.get p)).commit.access

/-- The permissions of a port in the installed ACCESS image (R182). -/
def State.access (s : State) (p : Port) : PortAccess := portAccessOf (s.store.committed.access.get p)

/-- The run state that Position Fix, Class Change and Manual Mark check: IDLE while the closing
indicator is set (R156). -/
def State.requestRunState (s : State) : RunState := if s.run.closing then .idle else s.run.state

/-- The run is active from the taking of a Run Start until the run state becomes IDLE (11.1). -/
def State.runActive (s : State) : Bool := s.run.state != .idle

end Sys2Proof.Machine
end

