-- ==== Sys2Proof/Machine/Operands.lean ====
section
/-! DEFINITION. The operand forms of the commands: the fields of a request's body (13.3), lane frames
(R45, 13.2) and link frames (R188, 13.2), decoded from bytes. -/

namespace Sys2Proof.Machine

/-- The unsigned field of `size` bytes at offset `off` of a request's body. -/
def Request.field (r : Request) (off size : Nat) : Nat := ofLe ((r.body.drop off).take size)

/-- The sequence-number or generation field at offset `off` of a request's body. -/
def Request.word (r : Request) (off : Nat) : Word32 := BitVec.ofNat 32 (r.field off 4)

/-- The section a number names (11.1). -/
def sectionOf : Nat → Option Section
  | 0 => some .access
  | 1 => some .calibration
  | 2 => some .sampling
  | 3 => some .odometry
  | 4 => some .limits
  | 5 => some .marking
  | _ => none

/-- The lane a number names (R58). -/
def laneOf : Nat → Option Lane
  | 0 => some .sl0
  | 1 => some .sl1
  | 2 => some .sl2
  | 3 => some .sl3
  | _ => none

/-- The orientation a code names (13.1). -/
def orientationOf : Nat → Option Orientation
  | 0 => some .up
  | 1 => some .down
  | _ => none

/-- The overrun mode a code names (13.1). -/
def overrunOf : Nat → Option OverrunMode
  | 0 => some .inStream
  | 1 => some .immediate
  | _ => none

/-- The starting choices of a Stream Start (R169). -/
inductive StartChoice where
  | oldest | newest | sequence | continue_
deriving DecidableEq, Repr

/-- The starting choice a code names (13.1). -/
def startChoiceOf : Nat → Option StartChoice
  | 0 => some .oldest
  | 1 => some .newest
  | 2 => some .sequence
  | 3 => some .continue_
  | _ => none

/-- The notice mask a byte gives; bits that name no kind are ignored (R195, 13.3). -/
def maskOf (b : Nat) : NoticeMask :=
  { runState := b.testBit 0, laneState := b.testBit 1, tachState := b.testBit 2 }

/-- The lanes a lane mask's low four bits name (13.3). -/
def laneMaskOf (b : Nat) : PerLane Bool := ⟨b.testBit 0, b.testBit 1, b.testBit 2, b.testBit 3⟩

/-! ## Lane frames (R45, 13.2) -/

/-- The whole length of a lane frame of a known kind (13.2). -/
def laneFrameLength (kind : Nat) : Option Nat :=
  match kind with
  | 1 => some 9
  | 2 => some 9
  | 3 => some 21
  | 4 => some 7
  | _ => none

/-- The kind a lane expects (3.2). -/
def expectedKind : Lane → Nat
  | .sl0 => 1
  | .sl1 => 2
  | .sl2 => 3
  | .sl3 => 4

/-- The little-endian signed field of `size` bytes at offset `off`. -/
def signedAt (bytes : List Byte) (off size : Nat) : Int :=
  signedOf size (ofLe ((bytes.drop off).take size))

/-- The raw payload of a frame of the given kind, from its bytes (13.2). -/
def payloadOf (kind : Nat) (bytes : List Byte) : Payload :=
  match kind with
  | 3 => .inertial (signedAt bytes 3 4) (signedAt bytes 7 4) (signedAt bytes 11 4) (signedAt bytes 15 4)
  | 4 => .aux (signedAt bytes 3 2)
  | _ => .head (signedAt bytes 3 2) (signedAt bytes 5 2)

/-- What the checks of R45 make of a frame. -/
inductive LaneCheck where
  | badCrc
  | wrongKind
  | wellFormed (sequence : Byte) (reading : Reading)
deriving DecidableEq, Repr

/-- The checks of R45 in their order: the length of the stated kind, the CRC, the lane's kind. -/
def checkLaneFrame (lane : Lane) (bytes : List Byte) : LaneCheck :=
  let kind := ofLe (bytes.take 1)
  match laneFrameLength kind with
  | none => .badCrc
  | some n =>
    if bytes.length = n then
      if (crc16 (bytes.take (n - 2))).toNat = ofLe (bytes.drop (n - 2)) then
        if kind = expectedKind lane then
          .wellFormed (bytes.getD 1 0) { status := bytes.getD 2 0, payload := payloadOf kind bytes }
        else .wrongKind
      else .badCrc
    else .badCrc

/-! ## Link frames (R188, 13.2) -/

/-- What the checks of R188 make of a frame. -/
inductive LinkCheck where
  | framing
  | crc
  | good (r : Request)
deriving DecidableEq, Repr

/-- The checks of R188 in their order: sync byte, body length and frame length, CRC, type. -/
def checkLinkFrame (bytes : List Byte) : LinkCheck :=
  if bytes.head? = some 0xC5 then
    let n := ofLe ((bytes.drop 5).take 2)
    if n ≤ 1024 ∧ bytes.length = n + 9 then
      if (crc16 ((bytes.drop 1).take (n + 6))).toNat = ofLe (bytes.drop (n + 7)) then
        if bytes.getD 1 0 = 1 then
          .good { code := bytes.getD 2 0, tag := BitVec.ofNat 16 (ofLe ((bytes.drop 3).take 2))
                  body := (bytes.drop 7).take n }
        else .framing
      else .crc
    else .framing
  else .framing

end Sys2Proof.Machine
end

