-- ==== Sys2Proof/Machine/Resampling.lean ====
section
/-! DEFINITION. Processed values (R48 to R51) and the spatial resampler (R67 to R69, R71). -/

namespace Sys2Proof.Machine

/-- The values with every one absent. -/
def noValues : Values :=
  { dL := none, vL := none, dR := none, vR := none, zL := none, zR := none, w := none, phi := none
    aux := none }

/-! ## Processed values -/

/-- A processed reading polarity × raw + offset, absent when the raw value is the sensor's encoding
of no value (R48, R49). -/
def processed (noValue polarity offset raw : Int) : Option Int :=
  if raw = noValue then none else some (polarity * raw + offset)

/-- Bit 0 of a frame's status: RAIL_LOST for a head, ALIGNING for the inertial unit (13.2). -/
def Reading.lost (r : Reading) : Bool := r.status.getLsbD 0

/-- The processed d and v of a rail head (R48). -/
def processHead (c : HeadCalibration) (r : Reading) : Option Int × Option Int :=
  match r.payload with
  | .head d v =>
    if r.lost then (none, none)
    else (processed (-32768) c.dPolarity c.dOffset d, processed (-32768) c.vPolarity c.vOffset v)
  | _ => (none, none)

/-- The processed z_L, z_R, w and φ of the inertial unit (R49). -/
def processInertial (c : CalibrationImage) (r : Reading) :
    Option Int × Option Int × Option Int × Option Int :=
  match r.payload with
  | .inertial zL zR w phi =>
    if r.lost then (none, none, none, none)
    else (processed (-2147483648) 1 c.zLOffset zL, processed (-2147483648) 1 c.zROffset zR,
      processed (-2147483648) c.wPolarity c.wOffset w,
      processed (-2147483648) c.phiPolarity c.phiOffset phi)
  | _ => (none, none, none, none)

/-- The processed auxiliary value (R50). -/
def processAux (r : Reading) : Option Int :=
  match r.payload with
  | .aux v => if r.status = 0 then processed (-32768) 1 0 v else none
  | _ => none

/-- The processed values of a set from its slots under a CALIBRATION image (R48 to R51). -/
def processSlots (c : CalibrationImage) (slots : PerLane (Option Reading)) : Values :=
  let left := (slots.sl0.map (processHead c.left)).getD (none, none)
  let right := (slots.sl1.map (processHead c.right)).getD (none, none)
  let inertial := (slots.sl2.map (processInertial c)).getD (none, none, none, none)
  { dL := left.1, vL := left.2, dR := right.1, vR := right.2
    zL := inertial.1, zR := inertial.2.1, w := inertial.2.2.1, phi := inertial.2.2.2
    aux := slots.sl3.bind processAux }

/-! ## Interpolation -/

/-- The interpolated value of R68, absent when either side is absent. -/
def interpolate (e : PointEntry) (left right : Option Int) : Option Int :=
  match left, right with
  | some l, some r => some (l + roundDiv ((r - l) * (e.target - e.left)) (e.right - e.left))
  | _, _ => none

/-- The interpolated values of a point, each field judged for itself (R68). -/
def interpolateValues (e : PointEntry) (l r : Values) : Values :=
  { dL := interpolate e l.dL r.dL, vL := interpolate e l.vL r.vL
    dR := interpolate e l.dR r.dR, vR := interpolate e l.vR r.vR
    zL := interpolate e l.zL r.zL, zR := interpolate e l.zR r.zR
    w := interpolate e l.w r.w, phi := interpolate e l.phi r.phi, aux := interpolate e l.aux r.aux }

/-- No tachometer flag. -/
def noFlags : TachFlags :=
  { disagreement := false, conflict := false, tachFailed := false, overSpeed := false }

/-- The tachometer flags of a set. -/
def SampleSet.tachFlags (x : SampleSet) : TachFlags := (x.items.map StrobeItems.flags).getD noFlags

/-- The speed of a set. -/
def SampleSet.speed (x : SampleSet) : Nat := (x.items.map StrobeItems.speed).getD 0

/-- The spatial sample of an entry from its right bracketing set and the held set (R67 to R69).
Without a held set, which R70 excludes, every value is absent (log 16). -/
def resample (held : Option SampleSet) (x : SampleSet) (e : PointEntry) : SpatialSample :=
  match held with
  | some l =>
    { point := e.point, target := e.target, position := e.position, corrected := e.corrected
      limited := e.limited, values := interpolateValues e l.values x.values, speed := x.speed
      flags := l.tachFlags.union x.tachFlags, late := l.late || x.late
      absent := l.absent.union x.absent }
  | none =>
    { point := e.point, target := e.target, position := e.position, corrected := e.corrected
      limited := e.limited, values := noValues, speed := x.speed, flags := x.tachFlags, late := x.late
      absent := .all true }

/-- Hand a released set to the resampler (R67): every point-queue entry it brackets becomes a spatial
sample handed to the geometry unit, oldest first, and the set becomes the held set. -/
def State.handToResampler (s : State) (x : SampleSet) : State :=
  let due := s.base.queue.filter (fun e => e.strobe == x.strobe)
  { s with
    base := { s.base with queue := s.base.queue.filter (fun e => e.strobe != x.strobe) }
    geo := { s.geo with inbox := s.geo.inbox ++ due.map (resample s.resampler.held x) }
    resampler := { held := some x } }

/-! ## The drain at Run End (R71) -/

/-- The set of a strobe that the part still holds: not yet released, or the held set. -/
def State.findSet (s : State) (k : Word32) : Option SampleSet :=
  match s.lanes.sets.find? (fun x => x.strobe == k) with
  | some x => some x
  | none => s.resampler.held.filter (fun x => x.strobe == k)

/-- The drained sample of an entry (R71). The late flag is that of set k − 1 when that is the held
set, and clear otherwise. -/
def State.drainSample (s : State) (e : PointEntry) : SpatialSample :=
  let own := s.findSet e.strobe
  let before := s.findSet (e.strobe - 1)
  { point := e.point, target := e.target, position := e.position, corrected := e.corrected
    limited := e.limited, values := noValues
    speed := (own.map SampleSet.speed).getD 0
    flags := ((before.map SampleSet.tachFlags).getD noFlags).union
      ((own.map SampleSet.tachFlags).getD noFlags)
    late := match s.resampler.held with
      | some h => h.strobe == e.strobe - 1 && h.late
      | none => false
    absent := .all true }

/-- The drain: every point-queue entry becomes a drained sample handed to the geometry unit, and the
queue is empty. The held set is not changed (R71). -/
def State.drain (s : State) : State :=
  { s with
    base := { s.base with queue := [] }
    geo := { s.geo with inbox := s.geo.inbox ++ s.base.queue.map s.drainSample } }

end Sys2Proof.Machine
end

