-- ==== Sys2Proof/Machine/Tachometers.lean ====
section
/-! DEFINITION. Tachometers and travel (01): pulses, increments, the used increment, health, net
travel and speed. The three pulse commands have their meanings here; the taking of a strobe is used
by SAMPLE_STROBE and by the resets. -/

namespace Sys2Proof.Machine

/-! ## Pulses (R1, R2, R12) -/

/-- A tachometer at a rising edge of its phase 1: with no candidate in progress a candidate begins,
with the W_min and REVERSE in force and the level of phase 2 (R1, R2). -/
def Tach.risingEdge (t : Tach) (wMin : Nat) (reverse phase2 : Bool) : Tach :=
  match t.candidate with
  | some _ => t
  | none => { t with candidate := some { wMin := wMin, reverse := reverse, phase2 := phase2 } }

/-- The direction of an accepted pulse: +1 forward, −1 backward (R2). -/
def Candidate.direction (c : Candidate) : Int := if c.phase2 = c.reverse then 1 else -1

/-- A tachometer at the acceptance of its candidate (R2, R10, R12). -/
def Tach.acceptPulse (t : Tach) : Tach :=
  match t.candidate with
  | none => t
  | some c =>
    { t with
      pulses := t.pulses + c.direction
      seen := true
      silent := 0
      health := if t.health = .failed then .recovering else t.health
      recovery := if t.health = .failed then 0 else t.recovery
      candidate := none }

/-- A tachometer whose phase 1 falls before W_min has passed (R1). -/
def Tach.dropPulse (t : Tach) : Tach :=
  match t.candidate with
  | none => t
  | some _ => { t with glitches := satInc 65535 t.glitches, candidate := none }

/-- The TACH_STATE notice of a change of health, or none when there is no change (R14). -/
def tachNotice (x : TachId) (before after : Health) : List Notice :=
  if before = after then [] else [.tachState x before after]

/-- `s` with one tachometer's state replaced. -/
def State.setTach (s : State) (x : TachId) (t : Tach) : State :=
  { s with tach := { s.tach with units := s.tach.units.set x t } }

/-- PULSE_CANDIDATE (R1, R2, R19). -/
def execPulseCandidate (x : TachId) (phase2 : Bool) (s : State) : Host.Outcome State Fault Refusal :=
  let o := s.store.committed.odometry
  .next (s.setTach x ((s.tach.units.get x).risingEdge o.wMin (o.reverse.get x) phase2))

/-- PULSE_ACCEPT (R2, R10, R12, R14). -/
def execPulseAccept (x : TachId) (s : State) : Host.Outcome State Fault Refusal :=
  let t := s.tach.units.get x
  let t' := t.acceptPulse
  .next ((s.setTach x t').offerAll (tachNotice x t.health t'.health))

/-- GLITCH (R1). -/
def execGlitch (x : TachId) (s : State) : Host.Outcome State Fault Refusal :=
  .next (s.setTach x (s.tach.units.get x).dropPulse)

/-! ## The taking of a strobe (R4) -/

/-- The tachometer increment ΔX of R3; the division rounds toward minus infinity. -/
def Tach.increment (t : Tach) (o : OdometryImage) : Int :=
  t.pulses * o.circumference / o.pulsesPerRev - t.latched * o.circumference / o.pulsesPerRev

/-- The disagreement of two increments under the tolerances in force (R9, R13). -/
def disagrees (o : OdometryImage) (da db : Int) : Bool :=
  decide (max o.tolAbs (max da.natAbs db.natAbs * o.tolRel / 1000) < (da - db).natAbs)

/-- Whether both increments are non-zero and of opposite signs (R6). -/
def opposed (da db : Int) : Bool := decide (da * db < 0)

/-- The selected increment before the clamp (R5, R6, R7). With both tachometers out of HEALTHY, which
R11 excludes, it is 0 (log 15). -/
def selectIncrement (ha hb : Health) (da db : Int) : Int :=
  match ha, hb with
  | .healthy, .healthy =>
    if opposed da db then 0 else if db.natAbs ≤ da.natAbs then da else db
  | .healthy, _ => da
  | _, .healthy => db
  | _, _ => 0

/-- Δ_max for a strobe period (R8). -/
def maxIncrement (period : Nat) : Nat := 139 * period

/-- The over-speed clamp (R8). -/
def clampIncrement (period : Nat) (d : Int) : Int :=
  if (maxIncrement period : Int) < d then maxIncrement period
  else if d < -(maxIncrement period : Int) then -(maxIncrement period : Int)
  else d

/-- The speed window after a net travel has been appended: the newest 65 entries (R16). -/
def appendWindow (window : List Int) (n : Int) : List Int :=
  let w := window ++ [n]
  if Config.windowCapacity < w.length then w.tail else w

/-- The speed of R16 from a window that ends with N_k. -/
def windowSpeed (window : List Int) (net : Int) (period : Nat) : Nat :=
  match window.length - 1 with
  | 0 => 0
  | n => min 5000 (roundUpDiv ((net - window.headD net).natAbs * 36) (n * period))

/-- The silent distance of a tachometer after R10, from the other one's health and increment. -/
def Tach.grownSilence (t : Tach) (other : Health) (dOther : Int) : Nat :=
  if t.health ≠ .failed ∧ !t.seen ∧ other = .healthy then t.silent + dOther.natAbs else t.silent

/-- The health evaluation of one tachometer at a strobe (R10, R11, R13). `other` is the health the
other tachometer held when the strobe was taken, `dOwn` and `dOther` are the unclamped increments. -/
def Tach.evaluate (t : Tach) (o : OdometryImage) (other : Health) (dOwn dOther : Int) : Tach :=
  let t' := { t with silent := t.grownSilence other dOther }
  let meets := decide (o.failDistance * 1000 ≤ t'.silent)
  match t.health with
  | .failed => t'
  | .healthy =>
    if meets ∧ other = .healthy then { t' with health := .failed, recovery := 0 } else t'
  | .recovering =>
    if meets then { t' with health := .failed, recovery := 0 }
    else if disagrees o dOwn dOther then { t' with recovery := 0 }
    else if dOther = 0 then t'
    else if t'.recovery + 1 = 256 then { t' with health := .healthy, recovery := 0 }
    else { t' with recovery := t'.recovery + 1 }

/-- Step 6 of R4: the latched count takes the pulse count and the pulse-seen indicator is cleared. -/
def Tach.latch (t : Tach) : Tach := { t with latched := t.pulses, seen := false }

/-- The taking of strobe `k` by the tachometer unit (R4), with the ODOMETRY image and the strobe
period in force: the unit after it, the items handed on (R18) and the TACH_STATE notices raised, A's before B's (log 5). -/
def TachUnit.takeStrobe (u : TachUnit) (o : OdometryImage) (period : Nat) (k : Word32) :
    TachUnit × StrobeItems × List Notice :=
  let a := u.units.a
  let b := u.units.b
  let da := a.increment o
  let db := b.increment o
  let both := a.health = .healthy ∧ b.health = .healthy
  let selected := selectIncrement a.health b.health da db
  let delta := clampIncrement period selected
  let conflict := decide both && opposed da db
  let disagreement := decide both && disagrees o da db
  let net := u.net + delta
  let window := appendWindow u.window net
  let speed := windowSpeed window net period
  let a' := (a.evaluate o b.health da db).latch
  let b' := (b.evaluate o a.health db da).latch
  let flags : TachFlags :=
    { disagreement := disagreement, conflict := conflict, tachFailed := !decide both
      overSpeed := delta != selected }
  ({ units := ⟨a', b'⟩
     disagreements := if disagreement then satInc 65535 u.disagreements else u.disagreements
     conflicts := if conflict then satInc 65535 u.conflicts else u.conflicts
     net := net
     window := if u.rateChanged then [net] else window
     speed := speed
     rateChanged := false },
    { strobe := k, delta := delta, net := net, speed := speed, flags := flags },
    tachNotice .a a.health a'.health ++ tachNotice .b b.health b'.health)

end Sys2Proof.Machine
end

