-- ==== Sys2Proof/Machine/Lanes.lean ====
section
/-! DEFINITION. Sensor lanes and sample sets (03, 04): lane frames, the closing and release of sets,
lane scoring, the installation of a CALIBRATION image, the taking of a strobe by the lane receivers,
and the requests on lanes. -/

namespace Sys2Proof.Machine

/-! ## Release (R55, R65, R66) -/

/-- One lane's score of a released set: a hit when the set holds its frame (R55). -/
def LaneReceiver.score (r : LaneReceiver) (hit : Bool) : LaneReceiver :=
  match r.state with
  | .off => r
  | .locked =>
    if hit then { r with misses := 0 }
    else
      let r' := { r with missing := satInc 65535 r.missing, misses := r.misses + 1 }
      if r'.misses = 16 then { r' with state := .lost, hits := 0, misses := 0 } else r'
  | .seeking | .lost =>
    if hit then
      if r.hits + 1 = 4 then { r with state := .locked, hits := 0, misses := 0 }
      else { r with hits := r.hits + 1 }
    else { r with hits := 0 }

/-- The LANE_STATE notice of a change of a lane's state, or none (R57). -/
def laneNotice (l : Lane) (before after : LaneCondition) : List Notice :=
  if before = after then [] else [.laneState l before after]

/-- The LANE_STATE notices of the changes between two sets of lane receivers, SL0 first (R57). -/
def laneNotices (before after : PerLane LaneReceiver) : List Notice :=
  laneNotice .sl0 before.sl0.state after.sl0.state ++ laneNotice .sl1 before.sl1.state after.sl1.state
    ++ laneNotice .sl2 before.sl2.state after.sl2.state
    ++ laneNotice .sl3 before.sl3.state after.sl3.state

/-- Whether each lane's slot of a set is filled. -/
def SampleSet.filled (x : SampleSet) : PerLane Bool := x.slots.map Option.isSome

/-- Every lane scored against a released set (step 2 of R66). -/
def scoreLanes (lanes : PerLane LaneReceiver) (x : SampleSet) : PerLane LaneReceiver :=
  ⟨lanes.sl0.score x.slots.sl0.isSome, lanes.sl1.score x.slots.sl1.isSome,
    lanes.sl2.score x.slots.sl2.isSome, lanes.sl3.score x.slots.sl3.isSome⟩

/-- The release of the set at the front of the list (R66): it takes the late flag, the lanes are
scored, and it goes to the resampler. -/
def State.releaseSet (s : State) (x : SampleSet) : State :=
  let lanes' := scoreLanes s.lanes.lane x
  let released := { x with late := s.lanes.latePending, condition := .released }
  let s' : State :=
    { s with lanes := { s.lanes with lane := lanes', latePending := false, sets := s.lanes.sets.tail } }
  (s'.offerAll (laneNotices s.lanes.lane lanes')).handToResampler released

/-- The strobe number of the set to be released next: 0 after a reset, then one after another (R65). -/
def Resampler.nextRelease (r : Resampler) : Word32 :=
  match r.held with
  | none => 0
  | some h => h.strobe + 1

/-- Whether the distance base has taken strobe `k`: its items no longer wait (R23, R65). -/
def DistanceBase.hasTaken (b : DistanceBase) (k : Word32) : Bool := b.inbox.all (fun i => i.strobe != k)

/-- The release test of R65. -/
def State.releasable (s : State) (x : SampleSet) : Bool :=
  x.condition == .closed && x.strobe == s.resampler.nextRelease && x.items.isSome
    && s.base.hasTaken x.strobe

/-- The chain of releases in ascending strobe order, until a set is reached that is not ready (R65).
The list is that of the sets not yet released. -/
def State.releaseChain (s : State) : List SampleSet → State
  | [] => s
  | x :: rest => if s.releasable x then (s.releaseSet x).releaseChain rest else s

/-- Release every set that is ready (R65). -/
def State.releaseReady (s : State) : State := s.releaseChain s.lanes.sets

/-! ## Installation of a CALIBRATION image (R51, R56) -/

/-- A lane receiver when a lane mode is installed in place of another (R56). -/
def LaneReceiver.changeMode (r : LaneReceiver) (before after : LaneMode) : LaneReceiver :=
  if before = after then r
  else match after with
    | .forceOff => { r with state := .off, hits := 0, misses := 0 }
    | .auto => if r.state = .off then { r with state := .seeking, hits := 0, misses := 0 } else r

/-- Every lane receiver when lane modes are installed in place of others (R56). -/
def changeModes (lanes : PerLane LaneReceiver) (before after : PerLane LaneMode) : PerLane LaneReceiver :=
  ⟨lanes.sl0.changeMode before.sl0 after.sl0, lanes.sl1.changeMode before.sl1 after.sl1,
    lanes.sl2.changeMode before.sl2 after.sl2, lanes.sl3.changeMode before.sl3 after.sl3⟩

/-- Whether a lane is kept among the awaited lanes when its receiver changes: not when it enters OFF. -/
def keepsAwaited (before after : LaneReceiver) : Bool := before.state == after.state || after.state != .off

/-- An OPEN set with the lanes that enter OFF removed from its awaited lanes (R56). -/
def SampleSet.dropLanes (x : SampleSet) (before after : PerLane LaneReceiver) : SampleSet :=
  match x.condition with
  | .opened =>
    { x with awaited :=
        ⟨x.awaited.sl0 && keepsAwaited before.sl0 after.sl0,
          x.awaited.sl1 && keepsAwaited before.sl1 after.sl1,
          x.awaited.sl2 && keepsAwaited before.sl2 after.sl2,
          x.awaited.sl3 && keepsAwaited before.sl3 after.sl3⟩ }
  | .closed | .released => x

/-- The installation of a CALIBRATION image with its lane modes (R51, R56, R57). The sets that
become complete by it are closed by the caller. -/
def State.installCalibration (s : State) (c : CalibrationImage) : State :=
  let lanes' := changeModes s.lanes.lane s.store.installedCal.modes c.modes
  let s' : State :=
    { s with
      store := { s.store with installedCal := c, stagedCal := false }
      lanes := { s.lanes with
        lane := lanes'
        sets := s.lanes.sets.map (fun x => x.dropLanes s.lanes.lane lanes') } }
  s'.offerAll (laneNotices s.lanes.lane lanes')

/-! ## Closing (R62, R64) -/

/-- Whether a set is complete: every lane it awaits has filled its slot (R62). -/
def SampleSet.complete (x : SampleSet) : Bool := x.awaited.subset x.filled

/-- Whether a set is OPEN. -/
def SampleSet.isOpen (x : SampleSet) : Bool := x.condition == .opened

/-- A set with its processed values and lane-absent mask formed, CLOSED (steps 2 and 3 of R64). -/
def SampleSet.formed (x : SampleSet) (c : CalibrationImage) : SampleSet :=
  { x with
    condition := .closed
    values := processSlots c x.slots
    absent := x.filled.map (fun b => !b) }

/-- The entry of a closing set in the list of recent sets (R46). -/
def SampleSet.recentEntry (x : SampleSet) (now : Word32) : RecentSet :=
  { strobe := x.strobe, closedAt := now, holds := x.filled }

/-- Replace the set of strobe `k` in a list of sets. -/
def updateSet (k : Word32) (f : SampleSet → SampleSet) (sets : List SampleSet) : List SampleSet :=
  sets.map (fun x => if x.strobe = k then f x else x)

/-- Steps 2 to 4 of R64 for the set of strobe `k`: its values are formed with the CALIBRATION image
in force, it becomes CLOSED and recent, and every set that is ready is released. -/
def State.closeFormed (s : State) (k : Word32) : State :=
  match s.lanes.sets.find? (fun x => x.strobe == k) with
  | none => s
  | some x =>
    State.releaseReady
      { s with lanes := { s.lanes with
          sets := updateSet k (fun y => y.formed s.store.installedCal) s.lanes.sets
          recent := s.lanes.recent ++ [x.recentEntry s.strobe.number] } }

/-- Close the sets of these strobes, one after another, where they are still OPEN. -/
def State.closeFormedAll (s : State) : List Word32 → State
  | [] => s
  | k :: ks =>
    (if s.lanes.sets.any (fun x => x.strobe == k && x.isOpen) then s.closeFormed k else s).closeFormedAll ks

/-- The strobes of the OPEN sets that are complete, in ascending order. -/
def completeStrobes (sets : List SampleSet) : List Word32 :=
  (sets.filter (fun x => x.isOpen && x.complete)).map SampleSet.strobe

/-- The closing of the OPEN set of strobe `k` (R64): the set is no longer open; a staged CALIBRATION
image is taken up (R51); the set's values are formed; and the sets that the take-up has made complete
close in ascending order (R56, R62; log 22). -/
def State.closeSet (s : State) (k : Word32) : State :=
  let s1 : State :=
    { s with lanes := { s.lanes with
        sets := updateSet k (fun x => { x with condition := .closed }) s.lanes.sets } }
  if s.store.stagedCal then
    let s2 := s1.installCalibration s.store.committed.calibration
    (s2.closeFormed k).closeFormedAll (completeStrobes s2.lanes.sets)
  else s1.closeFormed k

/-- Close the sets of these strobes in order, each where it is still OPEN (R63). -/
def State.closeSets (s : State) : List Word32 → State
  | [] => s
  | k :: ks =>
    (if s.lanes.sets.any (fun x => x.strobe == k && x.isOpen) then s.closeSet k else s).closeSets ks

/-! ## The taking of a strobe by the lane receivers (R46, R61, R63) -/

/-- The strobes of the sets whose deadline strobe `m` brings under the assembly window in force (R63). -/
def deadlineStrobes (window : Nat) (m : Word32) (sets : List SampleSet) : List Word32 :=
  (sets.filter (fun x => x.isOpen && decide (window ≤ (m - x.strobe).toNat))).map SampleSet.strobe

/-- Set `k` as its strobe opens it (R61), with the tachometer items held for it (log 5). -/
def openedSet (lanes : PerLane LaneReceiver) (k : Word32) (items : StrobeItems) : SampleSet :=
  { strobe := k, condition := .opened, awaited := lanes.map (fun r => r.state != .off)
    items := some items, slots := .all none, values := noValues, absent := .all false, late := false }

/-- The taking of strobe `m` by the lane receivers (R61): deadlines, then the opening of set `m`,
which closes at once if it awaits no lane (R62); a recent set leaves the list at the eighth strobe
after the one at or after which it closed (R46). -/
def State.lanesTakeStrobe (s : State) (m : Word32) (items : StrobeItems) : State :=
  let s1 := s.closeSets (deadlineStrobes s.store.installedCal.assemblyWindow m s.lanes.sets)
  let x := openedSet s1.lanes.lane m items
  let s2 : State := { s1 with lanes := { s1.lanes with sets := s1.lanes.sets ++ [x] } }
  let s3 := if x.complete then s2.closeSet m else s2
  { s3 with lanes := { s3.lanes with
      recent := s3.lanes.recent.filter (fun r => decide ((m - r.closedAt).toNat < 8)) } }

/-- The issue of strobe `k` at a moment (R42), with k mod 256 on SS: the tachometer unit takes it (R4)
under the period that the strobe ends (R43), its notices are offered (R14), its items are handed to the
distance base (R18), the period that follows is that of the installed rate, and the lane receivers take
it (R61). -/
def State.issueStrobe (s : State) (k : Word32) (moment : Nat) : State :=
  let (unit, items, notices) :=
    s.tach.takeStrobe s.store.committed.odometry s.strobe.period k
  let s1 : State :=
    { s with
      time := moment
      tach := unit
      strobe := { number := k, period := strobePeriod s.store.committed.sampling.rate
                  ss := k.setWidth 8 }
      base := { s.base with inbox := s.base.inbox ++ [items] } }
  (s1.offerAll notices).lanesTakeStrobe k items

/-- SAMPLE_STROBE (R42, R43): the running period ends and the next strobe is issued. -/
def execSampleStrobe (s : State) : Host.Outcome State Fault Refusal :=
  .next (s.issueStrobe (s.strobe.number + 1) (s.time + s.strobe.period))

/-! ## Lane frames (R44 to R47, R52) -/

/-- `s` with one lane's receiver replaced. -/
def State.setLane (s : State) (l : Lane) (r : LaneReceiver) : State :=
  { s with lanes := { s.lanes with lane := s.lanes.lane.set l r } }

/-- A lane receiver after an integrity failure (R52). -/
def LaneReceiver.fail (r : LaneReceiver) : LaneReceiver :=
  { r with errors := satInc 255 r.errors, live := true, sticky := .all true }

/-- A lane receiver after a late frame (R46). -/
def LaneReceiver.lateFrame (r : LaneReceiver) : LaneReceiver :=
  { r with late := satInc 65535 r.late, live := false }

/-- A lane receiver after a frame that fills the set of strobe `k` (R46). -/
def LaneReceiver.fill (r : LaneReceiver) (k : Word32) (sequence : Byte) (reading : Reading) :
    LaneReceiver :=
  { r with
    accepted := r.accepted + 1, live := false
    last := some { strobe := k, sequence := sequence, reading := reading } }

/-- What the match of R46 makes of a well-formed frame. -/
inductive FrameMatch where
  | fills (k : Word32)
  | late
  | failure
deriving DecidableEq, Repr

/-- The match of a frame with sequence `q` on a lane against the open and the recent sets (R46).
Duplicates and sequence errors are both integrity failures. -/
def LaneUnit.matchFrame (u : LaneUnit) (l : Lane) (q : Byte) : FrameMatch :=
  match u.sets.find? (fun x => x.isOpen && x.strobe.setWidth 8 == q) with
  | some x => if (x.slots.get l).isSome then .failure else .fills x.strobe
  | none =>
    match u.recent.find? (fun r => r.strobe.setWidth 8 == q) with
    | some r => if r.holds.get l then .failure else .late
    | none => .failure

/-- A frame fills its slot in the set of strobe `k`; the set closes if that completes it (R46, R62). -/
def State.fillSlot (s : State) (l : Lane) (k : Word32) (sequence : Byte) (reading : Reading) : State :=
  let s1 := s.setLane l ((s.lanes.lane.get l).fill k sequence reading)
  let s2 : State :=
    { s1 with lanes := { s1.lanes with
        sets := updateSet k (fun x => { x with slots := x.slots.set l (some reading) }) s1.lanes.sets } }
  if s2.lanes.sets.any (fun x => x.strobe == k && x.isOpen && x.complete) then s2.closeSet k else s2

/-- A well-formed frame with sequence `q` on a lane (R46, R47, R52). -/
def State.takeFrame (s : State) (l : Lane) (q : Byte) (reading : Reading) : State :=
  let r := s.lanes.lane.get l
  match s.lanes.matchFrame l q with
  | .fills k => s.fillSlot l k q reading
  | .late =>
    let s1 := s.setLane l r.lateFrame
    { s1 with lanes := { s1.lanes with latePending := true } }
  | .failure => s.setLane l r.fail

/-- LANE_FRAME (R44, R45): ignored while the lane is OFF, checked and matched otherwise. -/
def execLaneFrame (l : Lane) (bytes : List Byte) (s : State) : Host.Outcome State Fault Refusal :=
  let r := s.lanes.lane.get l
  if r.state = .off then .next s
  else match checkLaneFrame l bytes with
    | .badCrc | .wrongKind => .next (s.setLane l r.fail)
    | .wellFormed q reading => .next (s.takeFrame l q reading)

/-! ## Requests on lanes (R54, R58, R59) -/

/-- The OK body of Read Lane Health (R58, 13.7). -/
def laneHealthFields (r : LaneReceiver) (p : Port) : List Field :=
  [flagField r.last.isSome, natField 1 r.state.code, natField 1 r.hits, natField 1 r.misses,
    flagField r.live, flagField (r.sticky.get p), natField 1 r.errors, natField 2 r.late,
    natField 2 r.missing, natField 4 r.accepted.toNat,
    natField 4 ((r.last.map (fun f => f.strobe.toNat)).getD 0)]

/-- READ_LANE_HEALTH (R58). -/
def execReadLaneHealth (p : Port) (s : State) : Host.Outcome State Fault Refusal :=
  .next (s.serve p 19 1 fun r =>
    match laneOf (r.field 0 1) with
    | none => s.refuseField p r 0
    | some l => s.answerOk p r (laneHealthFields (s.lanes.lane.get l) p))

/-- A lane receiver with the port's sticky flag cleared when the mask names the lane (R54). -/
def LaneReceiver.clearSticky (r : LaneReceiver) (p : Port) (named : Bool) : LaneReceiver :=
  if named then { r with sticky := r.sticky.set p false } else r

/-- CLEAR_LANE_FLAGS (R54): bits 4 to 7 of the mask name lanes outside SL0 to SL3 (13.3). -/
def execClearLaneFlags (p : Port) (s : State) : Host.Outcome State Fault Refusal :=
  .next (s.serve p 20 1 fun r =>
    let m := r.field 0 1
    if 16 ≤ m then s.refuseField p r 0
    else
      let named := laneMaskOf m
      let ls := s.lanes.lane
      let s' : State :=
        { s with lanes := { s.lanes with
            lane := ⟨ls.sl0.clearSticky p named.sl0, ls.sl1.clearSticky p named.sl1,
              ls.sl2.clearSticky p named.sl2, ls.sl3.clearSticky p named.sl3⟩ } }
      s'.answerOk p r [])

/-- The raw payload fields of a reading, as in the lane frame (R59, 13.7). -/
def Payload.rawFields : Payload → List Field
  | .head d v => [⟨2, d⟩, ⟨2, v⟩]
  | .inertial zL zR w phi => [⟨4, zL⟩, ⟨4, zR⟩, ⟨4, w⟩, ⟨4, phi⟩]
  | .aux v => [⟨2, v⟩]

/-- The processed fields of a lane's reading under a CALIBRATION image (R59, 13.7). -/
def processedFields (c : CalibrationImage) (l : Lane) (r : Reading) : List Field :=
  match r.payload with
  | .head _ _ =>
    let v := processHead (match l with | .sl1 => c.right | _ => c.left) r
    [absentField 4 v.1, absentField 4 v.2]
  | .inertial _ _ _ _ =>
    let v := processInertial c r
    [absentField 8 v.1, absentField 8 v.2.1, absentField 8 v.2.2.1, absentField 8 v.2.2.2]
  | .aux _ => [absentField 2 (processAux r)]

/-- The OK body of Read Lane Sample (R59, 13.7). -/
def laneSampleFields (c : CalibrationImage) (l : Lane) (r : LaneReceiver) : List Field :=
  [flagField r.last.isSome, natField 1 r.state.code]
    ++ match r.last with
      | none => []
      | some f =>
        [natField 4 f.strobe.toNat, natField 1 f.sequence.toNat, natField 1 f.reading.status.toNat]
          ++ f.reading.payload.rawFields ++ processedFields c l f.reading

/-- READ_LANE_SAMPLE (R59). -/
def execReadLaneSample (p : Port) (s : State) : Host.Outcome State Fault Refusal :=
  .next (s.serve p 21 1 fun r =>
    if (s.access p).rawRead then
      match laneOf (r.field 0 1) with
      | none => s.refuseField p r 0
      | some l => s.answerOk p r (laneSampleFields s.store.installedCal l (s.lanes.lane.get l))
    else s.refuse p r .notPermitted)

end Sys2Proof.Machine
end

