-- ==== Sys2Proof/Machine/Limits.lean ====
section
/-! DEFINITION. Limits and speed classes (06): thresholds, levels and zones, the class queue and Class
Change. -/

namespace Sys2Proof.Machine

/-- The threshold of a channel in a class, sense and level (R98, R99). -/
def LimitsImage.threshold (l : LimitsImage) (channel cls : Nat) (sense : Sense) (level : Nat) : Option Int :=
  l.thresholds.getD (thresholdIndex channel cls sense level) none

/-- The parameters of a channel (R98). -/
def LimitsImage.paramsOf (l : LimitsImage) (channel : Nat) : ChannelParams :=
  l.params.getD channel defaultParams

/-- Whether a value is beyond a limit in a sense (R103). -/
def beyond (sense : Sense) (v limit : Int) : Bool :=
  match sense with
  | .upper => decide (limit < v)
  | .lower => decide (v < limit)

/-- Whether a value reaches a threshold: it is present and the value beyond it (R102). -/
def reaches (sense : Sense) (v : Int) (t : Option Int) : Bool :=
  match t with
  | some x => beyond sense v x
  | none => false

/-- The level of a present value (R102). -/
def levelOf (l : LimitsImage) (channel cls : Nat) (sense : Sense) (v : Int) : Nat :=
  if reaches sense v (l.threshold channel cls sense 3) then 3
  else if reaches sense v (l.threshold channel cls sense 2) then 2
  else if reaches sense v (l.threshold channel cls sense 1) then 1
  else 0

/-- The closing reference of a sense: the present threshold of lowest level (R103). -/
def closingReference (l : LimitsImage) (channel cls : Nat) (sense : Sense) : Option Int :=
  match l.threshold channel cls sense 1, l.threshold channel cls sense 2 with
  | some t, _ => some t
  | none, some t => some t
  | none, none => l.threshold channel cls sense 3

/-- The hysteresis limit (R103). -/
def hysteresisLimit (sense : Sense) (reference : Int) (h : Nat) : Int :=
  match sense with
  | .upper => reference - h
  | .lower => reference + h

/-- The zone of a channel value in one sense (R103). -/
def zoneOf (l : LimitsImage) (channel cls : Nat) (sense : Sense) (value : Option Int) : Zone :=
  match value with
  | none => .absent
  | some v =>
    match closingReference l channel cls sense with
    | none => .noLimit
    | some reference =>
      if beyond sense v reference then .exceeding (levelOf l channel cls sense v)
      else if beyond sense v (hysteresisLimit sense reference (l.paramsOf channel).hysteresis) then .band
      else .inside

/-- A staged LIMITS image, when one waits, is installed (R101, R181). -/
def Store.takeUpLimits (st : Store) : Store :=
  if st.stagedLim then { st with installedLim := st.committed.limits, stagedLim := false } else st

/-! ## The class queue (R106, R107) -/

/-- The effective point of a Class Change (R107). -/
def effectivePoint (evaluated p : Nat) : Nat := if evaluated < p then p else evaluated + 1

/-- The class queue with an entry inserted in its place, or put in place of the entry with the same
effective point (R107). -/
def insertClass (e : ClassEntry) : List ClassEntry → List ClassEntry
  | [] => [e]
  | x :: rest =>
    if x.effective < e.effective then x :: insertClass e rest
    else if x.effective = e.effective then e :: rest
    else e :: x :: rest

/-- The first bad field of a Class Change, if any (R107). -/
def badClassField (p cls : Nat) : Option Nat :=
  if p = 0 then some 0 else if 3 < cls then some 1 else none

/-- CLASS_CHANGE (R107, R156). -/
def execClassChange (p : Port) (s : State) : Host.Outcome State Fault Refusal :=
  .next (s.serve p 12 5 fun r =>
    let point := r.field 0 4
    let cls := r.field 4 1
    let effective := effectivePoint s.exc.evaluated point
    if !(s.access p).position then s.refuse p r .notPermitted
    else if s.requestRunState = .idle then s.refuse p r .wrongState
    else match badClassField point cls with
      | some index => s.refuseField p r index
      | none =>
        if s.exc.classQueue.any (fun e => e.effective == effective)
            || decide (s.exc.classQueue.length < Config.classCapacity) then
          let entry : ClassEntry := { effective := effective, cls := cls, requested := point, port := p }
          { s with exc := { s.exc with classQueue := insertClass entry s.exc.classQueue } }.answerOk p r
            [natField 4 effective]
        else s.refuse p r .queueFull)

end Sys2Proof.Machine
end

