-- ==== Sys2Proof/Machine/Marking.lean ====
section
/-! DEFINITION. Marking (08): the decision of mark requests, firing, discarding, Manual Mark, and the
end of the marker pulse. -/

namespace Sys2Proof.Machine

/-- The measurement interval in µm, I_µ (02). -/
def intervalMicrons (m : SamplingImage) : Int := m.interval * 1000

/-- The target T of a mark request at point `p` (R137). -/
def markTarget (sam : SamplingImage) (mk : MarkingImage) (p : Nat) : Int :=
  p * intervalMicrons sam + mk.offset * 1000

/-- Insert an entry after every entry of smaller target and before every entry of greater (R138). -/
def insertMark (e : MarkEntry) : List MarkEntry → List MarkEntry
  | [] => [e]
  | x :: rest => if x.target < e.target then x :: insertMark e rest else e :: x :: rest

/-- Whether some entry's target lies within the merge distance of `t` (R137). -/
def mergesWith (mk : MarkingImage) (t : Int) (queue : List MarkEntry) : Bool :=
  queue.any (fun x => decide ((x.target - t).natAbs ≤ mk.merge * 1000))

/-- The decision of a mark request of target `t` at point `p` (R137): the unit after it and the
outcome. With marking disabled a tracker's request is answered NONE and counts nothing. -/
def MarkingUnit.decideMark (u : MarkingUnit) (mk : MarkingImage) (t : Int) (p : Nat) (src : MarkSource) :
    MarkingUnit × MarkOutcome :=
  if !mk.enable then (u, .none)
  else if t ≤ u.rm then ({ u with counts := { u.counts with late := u.counts.late + 1 } }, .late)
  else if mergesWith mk t u.queue then
    ({ u with counts := { u.counts with merged := u.counts.merged + 1 } }, .merged)
  else if Config.markCapacity ≤ u.queue.length then
    ({ u with counts := { u.counts with dropped := u.counts.dropped + 1 } }, .dropped)
  else
    ({ u with
       queue := insertMark { target := t, point := p, source := src } u.queue
       counts := { u.counts with queued := u.counts.queued + 1 } }, .queued)

/-- The MARK record of an entry fired at run travel `travel` at a strobe (R142). -/
def markRecord (travel : Int) (k : Word32) (paused : Bool) (e : MarkEntry) : Record :=
  .mark { point := e.point, source := e.source, target := e.target, travel := travel, strobe := k
          paused := paused }

/-- The taking of a strobe's run travel (R140): R_m is set, every entry at the front of the queue whose
target it reaches fires, and each firing drives MK to a new pulse end (R141) and hands on a MARK
record (R142). -/
def MarkingUnit.take (u : MarkingUnit) (mk : MarkingImage) (travel : Int) (k : Word32) (moment : Nat)
    (paused : Bool) : MarkingUnit :=
  let fired := u.queue.takeWhile (fun e => decide (e.target ≤ travel))
  { u with
    queue := u.queue.dropWhile (fun e => decide (e.target ≤ travel))
    rm := travel
    line := if fired.isEmpty then u.line else some (moment + mk.pulse * 1000)
    counts := { u.counts with fired := u.counts.fired + fired.length }
    out := u.out ++ fired.map (markRecord travel k paused) }

/-- Every entry of the queue is discarded and counted (R144, R145). -/
def MarkingUnit.discardAll (u : MarkingUnit) : MarkingUnit :=
  { u with
    queue := []
    counts := { u.counts with discarded := u.counts.discarded + u.queue.length } }

/-- Whether the pulse end of MK falls within the strobe period now running (R141): an expiry asked for
while it lies later, as after a firing that has moved it, no longer falls (logs 2 and 3). -/
def State.pulseEndDue (s : State) : Bool :=
  match s.marking.line with
  | none => false
  | some e => decide (e ≤ s.time + s.strobe.period)

/-- MARKER_PULSE_END (R141): the line's expiry. -/
def execMarkerPulseEnd (s : State) : Host.Outcome State Fault Refusal :=
  if s.pulseEndDue then .next { s with marking := { s.marking with line := none } } else .next s

/-- MANUAL_MARK (R143, R156): the checks in their order, then the decision of R137. -/
def execManualMark (p : Port) (s : State) : Host.Outcome State Fault Refusal :=
  .next (s.serve p 13 4 fun r =>
    let j := r.field 0 4
    let mk := s.store.committed.marking
    if !(s.access p).position then s.refuse p r .notPermitted
    else if s.requestRunState = .idle then s.refuse p r .wrongState
    else if j = 0 then s.refuseField p r 0
    else if s.base.last < j then s.refuse p r .pointAhead
    else if 4096 < s.base.last - j then s.refuse p r .tooOld
    else if !mk.enable then s.refuse p r .markingOff
    else
      let t := markTarget s.store.committed.sampling mk j
      let (unit, outcome) := s.marking.decideMark mk t j (.manual p)
      { s with marking := unit }.answerOk p r [natField 1 outcome.code, ⟨8, t⟩])

end Sys2Proof.Machine
end

