-- ==== Sys2Proof/Machine/Settings.lean ====
section
/-! DEFINITION. Shared settings (11): Read Settings, Commit Settings with its checks and its
installation, and Await Change. -/

namespace Sys2Proof.Machine

/-! ## Reading and reserving (R177, R178) -/

/-- Whether a section's committed image is staged (R181). -/
def Store.staged (st : Store) : Section → Bool
  | .calibration => st.stagedCal
  | .limits => st.stagedLim
  | .access | .sampling | .odometry | .marking => false

/-- The section number and generation of a section, as the responses carry them (13.7). -/
def Store.generationFields (st : Store) (sec : Section) : List Field :=
  [natField 1 sec.code, natField 4 (st.generations.get sec).toNat]

/-- The OK body of Read Settings (R177, 13.7). -/
def settingsFields (st : Store) (sec : Section) : List Field :=
  st.generationFields sec ++ st.committed.fields sec ++ [flagField (st.staged sec)]

/-- READ_SETTINGS (R177). -/
def execReadSettings (p : Port) (s : State) : Host.Outcome State Fault Refusal :=
  .next (s.serve p 3 1 fun r =>
    match sectionOf (r.field 0 1) with
    | none => s.refuseField p r 0
    | some sec =>
      let held : Reservation := { sec := sec, generation := s.store.generations.get sec }
      (s.modPort p (fun q => { q with reservation := some held })).answerOk p r
        (settingsFields s.store sec))

/-! ## Installing and staging (R180, R181) -/

/-- The committed images with one section's image replaced by the one that field values spell. -/
def Images.replace (i : Images) (sec : Section) (v : List Int) : Images :=
  match sec with
  | .access => { i with access := accessOf v }
  | .calibration => { i with calibration := calibrationOf v }
  | .sampling => { i with sampling := samplingOf v }
  | .odometry => { i with odometry := odometryOf v }
  | .limits => { i with limits := limitsOf v }
  | .marking => { i with marking := markingOf v }

/-- The store after steps 1 and 3 of R180 on itself: generation raised, image committed. -/
def Store.commit (st : Store) (sec : Section) (v : List Int) : Store :=
  { st with
    generations := st.generations.set sec (st.generations.get sec + 1)
    committed := st.committed.replace sec v }

/-- A port without a reservation on a section (R178). -/
def PortState.dropReservation (q : PortState) (sec : Section) : PortState :=
  match q.reservation with
  | none => q
  | some r => if r.sec = sec then { q with reservation := none } else q

/-- The CALIBRATION image in force once its commit has been installed: the lane modes change, and the
OPEN sets that this completes close in ascending order (R56, R62, R180). -/
def State.putCalibration (s : State) : State :=
  let s' := s.installCalibration s.store.committed.calibration
  s'.closeFormedAll (completeStrobes s'.lanes.sets)

/-- Step 3 of R180: the image just committed is installed, or staged while the run is active. `before`
holds the images that were committed before. -/
def State.handImage (s : State) (sec : Section) (before : Images) : State :=
  match sec with
  | .access | .odometry => s
  | .calibration =>
    if s.runActive then { s with store := { s.store with stagedCal := true } } else s.putCalibration
  | .sampling =>
    if s.store.committed.sampling.rate = before.sampling.rate then s
    else { s with tach := { s.tach with rateChanged := true } }
  | .limits =>
    if s.runActive then { s with store := { s.store with stagedLim := true } }
    else { s with store := { s.store with installedLim := s.store.committed.limits } }
  | .marking =>
    if before.marking.enable && !s.store.committed.marking.enable then
      { s with marking := s.marking.discardAll }
    else s

/-! ## Committing (R179, R180, R183) -/

/-- A port whose parked Await on the section is answered with the section and its generation (R183). -/
def PortState.answerAwait (q : PortState) (sec : Section) (fields : List Field) : PortState :=
  match q.await with
  | none => q
  | some a => if a.sec = sec then { q with await := none }.respond 5 a.tag .ok fields else q

/-- The checks of R179 in their order, on field values of the right number: the completion code with
its fields, or none when every check passes. -/
def State.commitRefusal (s : State) (p : Port) (sec : Section) (v : List Int) :
    Option (Completion × List Field) :=
  let held : Reservation := { sec := sec, generation := s.store.generations.get sec }
  if !(s.access p).commit.get sec then some (.notPermitted, [])
  else if (s.ports.get p).reservation ≠ some held then some (.lostReservation, [])
  else if (sec = .sampling ∨ sec = .odometry) ∧ s.runActive then some (.runActive, [])
  else if s.store.staged sec then some (.applyPending, [])
  else match firstBadField sec v with
    | some index => some (.invalidField, [natField 2 index])
    | none =>
      if sec = .access ∧ (holdsAccess (accessOf v) .p0 || holdsAccess (accessOf v) .p1
          || holdsAccess (accessOf v) .p2) = false then some (.accessLockout, [])
      else none

/-- Steps 1 to 4 of R180. -/
def State.commitImage (s : State) (sec : Section) (v : List Int) : State :=
  let s1 : State :=
    { s with store := s.store.commit sec v, ports := s.ports.map (fun q => q.dropReservation sec) }
  let s2 := s1.handImage sec s.store.committed
  { s2 with ports := s2.ports.map (fun q => q.answerAwait sec (s2.store.generationFields sec)) }

/-- The commit of an image of a section, its bytes being the body after the first (R179, R180). -/
def State.commitSection (s : State) (p : Port) (r : Request) (sec : Section) : State :=
  let v := decodeSlots (sectionLayout sec) (r.body.drop 1)
  match s.commitRefusal p sec v with
  | some (c, fields) => s.answer p r c fields
  | none =>
    let done := s.commitImage sec v
    done.answerOk p r (done.store.generationFields sec)

/-- COMMIT_SETTINGS (R179, R180, R190). -/
def execCommitSettings (p : Port) (s : State) : Host.Outcome State Fault Refusal :=
  match s.frontRequest p 4 with
  | none => .next s
  | some r =>
    if r.body.length = 0 then .next (s.refuse p r .badLength)
    else match sectionOf (r.field 0 1) with
      | none => .next (s.refuseField p r 0)
      | some sec =>
        if r.body.length = 1 + imageLength sec then .next (s.commitSection p r sec)
        else .next (s.refuse p r .badLength)

/-! ## Awaiting a change (R183) -/

/-- AWAIT_CHANGE (R183). -/
def execAwaitChange (p : Port) (s : State) : Host.Outcome State Fault Refusal :=
  .next (s.serve p 5 5 fun r =>
    match sectionOf (r.field 0 1) with
    | none => s.refuseField p r 0
    | some sec =>
      let g := r.word 1
      if (s.ports.get p).await.isSome then s.refuse p r .wrongState
      else if s.store.generations.get sec ≠ g then s.answerOk p r (s.store.generationFields sec)
      else (s.modPort p (fun q =>
        { q with await := some { sec := sec, generation := g, tag := r.tag } })).finishRequest p)

end Sys2Proof.Machine
end

