-- ==== Sys2Proof/Machine/Reset.lean ====
section
/-! DEFINITION. The two resets: the reset line (R199) and Reset Part (R198). -/

namespace Sys2Proof.Machine

/-- The part before strobe 0: every block at its value after reset, under a settings store and with
the link states given (R21, R41, R60, R74, R97, R112, R136, R147, R160, R174, R185, R199). -/
def cleared (pending : List Instr) (store : Store) (links : PerPort LinkState) : State :=
  { pending := pending
    time := 0
    tach := resetTachUnit
    strobe := { number := 0, period := strobePeriod store.committed.sampling.rate, ss := 0 }
    lanes := resetLaneUnit store.installedCal.modes
    resampler := resetResampler
    base := resetBase
    geo := resetGeometry
    exc := resetExceedance
    marking := resetMarking
    run := resetRun
    ring := resetRing
    store := store
    ports := links.map resetPort
    resetPending := none }

/-- The part after a reset, strobe 0 having been issued as it ends (R42, R60; log 6). -/
def restarted (pending : List Instr) (store : Store) (links : PerPort LinkState) : State :=
  (cleared pending store links).issueStrobe 0 0

/-- RESET_LINE (R199): the settings take their defaults and every link is DOWN. -/
def execResetLine (s : State) : Host.Outcome State Fault Refusal :=
  .next (restarted s.pending resetStore (.all .down))

/-- The settings store as Reset Part leaves it: a staged image is installed, and the committed images
and the generations are kept (R185). -/
def Store.afterResetPart (st : Store) : Store :=
  { st with
    installedCal := if st.stagedCal then st.committed.calibration else st.installedCal
    installedLim := if st.stagedLim then st.committed.limits else st.installedLim
    stagedCal := false
    stagedLim := false }

/-- The application of an accepted Reset Part (R198): the link states are kept. -/
def State.applyReset (s : State) : State :=
  restarted s.pending s.store.afterResetPart (s.ports.map PortState.link)

/-- An accepted Reset Part (R198): dispatching stops and the OK response is placed. The request stays at
the front of its queue until the reset (R189). On a DOWN link the response is discarded and the
reset applied at once (log 20). -/
def State.acceptReset (s : State) (p : Port) (r : Request) : State :=
  match (s.ports.get p).link with
  | .up =>
    State.modPort { s with resetPending := some p } p (fun q => q.respond r.code r.tag .ok [])
  | .down => s.applyReset

/-- RESET_PART (R198): dispatch of a Reset Part request. -/
def execResetPart (p : Port) (s : State) : Host.Outcome State Fault Refusal :=
  .next (s.serve p 22 0 fun r =>
    if (s.access p).reset then s.acceptReset p r else s.refuse p r .notPermitted)

end Sys2Proof.Machine
end

