-- ==== Sys2Proof/Machine/Geometry.lean ====
section
/-! DEFINITION. Geometry channels (05): per-point values, twists and versines, the emission of POINT
records, flushes and paused records, and the geometry unit's part of the run operations that take
place in it alone. -/

namespace Sys2Proof.Machine

/-! ## Values of a point (R78 to R81, R85) -/

/-- The saturation of a channel's exact result (R85); an absent channel has its bit clear. -/
def saturate : Option Int → Channel
  | none => { value := none, saturated := false }
  | some v =>
    if 32767 < v then { value := some 32767, saturated := true }
    else if v < -32767 then { value := some (-32767), saturated := true }
    else { value := some v, saturated := false }

/-- The absent channel. -/
def absentChannel : Channel := { value := none, saturated := false }

/-- A sum of optional values, absent when either is. -/
def addValues (x y : Option Int) : Option Int :=
  match x, y with
  | some a, some b => some (a + b)
  | _, _ => none

/-- A difference of optional values, absent when either is. -/
def subValues (x y : Option Int) : Option Int :=
  match x, y with
  | some a, some b => some (a - b)
  | _, _ => none

/-- Whether a sample is at low speed (R78). -/
def isLowSpeed (sam : SamplingImage) (x : SpatialSample) : Bool := decide (x.speed < sam.vMin * 10)

/-- The values the geometry unit computes with: at low speed the inertial ones are absent (R78). -/
def effectiveValues (low : Bool) (v : Values) : Values :=
  if low then { v with zL := none, zR := none, w := none, phi := none } else v

/-- GAUGE (R79). -/
def gaugeOf (c : CalibrationImage) (v : Values) : Channel :=
  saturate ((addValues v.dL v.dR).map (fun d => c.g0 + d))

/-- XLEVEL (R80). -/
def xlevelOf (c : CalibrationImage) (v : Values) : Channel :=
  saturate (subValues (v.phi.map (fun phi => roundDiv (c.railDistance * phi) 1000000))
    (subValues v.vL v.vR))

/-- A sample with its per-point values, formed when it is taken (R77 to R81). -/
def formSample (c : CalibrationImage) (sam : SamplingImage) (x : SpatialSample) : WindowSample :=
  let low := isLowSpeed sam x
  let v := effectiveValues low x.values
  { sample := x, lowSpeed := low, gauge := gaugeOf c v, xlevel := xlevelOf c v
    yL := subValues v.zL v.vL, yR := subValues v.zR v.vR
    aL := addValues v.w v.dL, aR := subValues v.w v.dR, written := false }

/-! ## Channels along the track (R82 to R84) -/

/-- The history entry for a point (R76). -/
def historyAt (h : List HistoryPair) (p : Nat) : Option Channel :=
  (h.find? (fun e => e.point == p)).map HistoryPair.xlevel

/-- The twist of point `m` over a base of `b` points (R82); its bit is also set when a cross-level it
used was saturated (R85). -/
def twistOf (h : List HistoryPair) (m : Nat) (xlevel : Channel) (b : Nat) : Channel :=
  match (if b ≤ m then historyAt h (m - b) else none) with
  | none => absentChannel
  | some back =>
    let t := saturate (subValues xlevel.value back.value)
    match t.value with
    | none => absentChannel
    | some _ => { t with saturated := t.saturated || xlevel.saturated || back.saturated }

/-- The chord input `u` of a point that is within the segment (R75): the window holds its sample. -/
def inputAt (window : List WindowSample) (u : WindowSample → Option Int) (p : Nat) : Option Int :=
  (window.find? (fun x => x.sample.point == p)).bind u

/-- The versine of chord input `u` at point `m` over half-chord `h` (R83). -/
def versineOf (window : List WindowSample) (u : WindowSample → Option Int) (m h : Nat) : Channel :=
  if h ≤ m then
    match inputAt window u m, inputAt window u (m - h), inputAt window u (m + h) with
    | some x, some back, some fore => saturate (some (roundDiv (2 * x - back - fore) 2))
    | _, _, _ => absentChannel
  else absentChannel

/-- The eight channels of a point as its record is written (R79, R80, R82, R84). -/
def channelsOf (sam : SamplingImage) (window : List WindowSample) (history : List HistoryPair)
    (x : WindowSample) : Channels :=
  let m := x.sample.point
  { gauge := x.gauge, xlevel := x.xlevel
    twistS := twistOf history m x.xlevel sam.twistS
    twistL := twistOf history m x.xlevel sam.twistL
    topL := versineOf window WindowSample.yL m sam.halfV
    topR := versineOf window WindowSample.yR m sam.halfV
    alignL := versineOf window WindowSample.aL m sam.halfA
    alignR := versineOf window WindowSample.aR m sam.halfA }

/-- The channels of a paused record: all absent (R91). -/
def absentChannels : Channels :=
  { gauge := absentChannel, xlevel := absentChannel, twistS := absentChannel, twistL := absentChannel
    topL := absentChannel, topR := absentChannel, alignL := absentChannel, alignR := absentChannel }

/-- The emission delay H_d of a SAMPLING image (5.1). -/
def emissionDelay (sam : SamplingImage) : Nat := max sam.halfV sam.halfA

/-! ## POINT records (R86 to R88, R90, R91) -/

/-- The class field of a record of point `m` (R88): the class of the last class-queue entry at or
before the point, or the current class. -/
def classAt (current : Nat) (queue : List ClassEntry) (m : Nat) : Nat :=
  match (queue.filter (fun e => decide (e.effective ≤ m))).getLast? with
  | some e => e.cls
  | none => current

/-- The POINT record of a sample (R87). -/
def pointRecord (x : SpatialSample) (cls : Nat) (channels : Channels) (low paused final : Bool) :
    PointRecord :=
  { point := x.point, position := x.position, speed := x.speed, cls := cls, channels := channels
    aux := x.values.aux, absent := x.absent, late := x.late, flags := x.flags, lowSpeed := low
    paused := paused, corrected := x.corrected, limited := x.limited, runFinal := final }

/-- The history with a written record's pair appended: the newest 128 (R76). -/
def appendHistory (h : List HistoryPair) (p : HistoryPair) : List HistoryPair :=
  let h' := h ++ [p]
  if Config.historyCapacity < h'.length then h'.tail else h'

/-- The writing of one record of the segment (R86): channels, record, hand-over to the ring, history
pair, pending emission count. -/
def GeometryUnit.write (g : GeometryUnit) (sam : SamplingImage) (cls : Nat → Nat) (final : Bool)
    (x : WindowSample) : GeometryUnit :=
  let m := x.sample.point
  let record := pointRecord x.sample (cls m) (channelsOf sam g.window g.history x) x.lowSpeed false final
  { g with
    window := g.window.map (fun y => if y.sample.point = m then { y with written := true } else y)
    history := appendHistory g.history { point := m, xlevel := x.xlevel }
    pendingCount := g.pendingCount - 1
    lastWritten := some m
    out := g.out ++ [record] }

/-- The emission test after sample `n` has entered the window (R86): point n − H_d, when it is within
the segment and its record has not been written. -/
def GeometryUnit.emit (g : GeometryUnit) (sam : SamplingImage) (cls : Nat → Nat) (n : Nat) :
    GeometryUnit :=
  if emissionDelay sam ≤ n then
    match g.window.find? (fun x => x.sample.point == n - emissionDelay sam && !x.written) with
    | some x => g.write sam cls false x
    | none => g
  else g

/-- A sample enters the window (R75, R77): the samples more than 2 × H_d points behind it leave, and
the first sample of a segment sets the segment start. -/
def GeometryUnit.enter (g : GeometryUnit) (c : CalibrationImage) (sam : SamplingImage)
    (x : SpatialSample) : GeometryUnit :=
  { g with
    window := (g.window ++ [formSample c sam x]).filter
      (fun y => decide (x.point ≤ y.sample.point + 2 * emissionDelay sam))
    segStart := match g.segStart with | none => some x.point | some p => some p
    pendingCount := g.pendingCount + 1 }

/-- The paused record of a sample taken while the segment open indicator is clear (R91). -/
def GeometryUnit.writePaused (g : GeometryUnit) (sam : SamplingImage) (cls : Nat → Nat)
    (x : SpatialSample) : GeometryUnit :=
  { g with
    lastWritten := some x.point
    out := g.out ++ [pointRecord x (cls x.point) absentChannels (isLowSpeed sam x) true false] }

/-- What the geometry unit does with a sample (R77). -/
def GeometryUnit.takeSample (g : GeometryUnit) (c : CalibrationImage) (sam : SamplingImage)
    (cls : Nat → Nat) (x : SpatialSample) : GeometryUnit :=
  if g.segOpen then (g.enter c sam x).emit sam cls x.point else g.writePaused sam cls x

/-- The writing of pending records with the run-final flag, in order (step 1 of R90). -/
def GeometryUnit.writeAll (g : GeometryUnit) (sam : SamplingImage) (cls : Nat → Nat) :
    List WindowSample → GeometryUnit
  | [] => g
  | x :: rest => (g.write sam cls true x).writeAll sam cls rest

/-- The flush of the segment (R90): every unwritten record, then the pending emission count is 0 and
the segment open indicator clear. -/
def GeometryUnit.flush (g : GeometryUnit) (sam : SamplingImage) (cls : Nat → Nat) : GeometryUnit :=
  { g.writeAll sam cls (g.window.filter (fun x => !x.written)) with pendingCount := 0, segOpen := false }

/-- The report is due once every record now waiting has been appended (step 5 of R90, R94). -/
def GeometryUnit.awaitReport (g : GeometryUnit) : GeometryUnit := { g with flushLeft := some g.out.length }

/-- The report is due at once, whatever records of before still wait (R90, R94). -/
def GeometryUnit.reportNow (g : GeometryUnit) : GeometryUnit := { g with flushLeft := some 0 }

/-- The flush of a Run Pause, and of a Run End taken in RUNNING (R90, R94): reported when its last record
has been appended, and an empty flush at once. -/
def GeometryUnit.pause (g : GeometryUnit) (sam : SamplingImage) (cls : Nat → Nat) : GeometryUnit :=
  if g.window.all WindowSample.written then (g.flush sam cls).reportNow
  else (g.flush sam cls).awaitReport

/-- At a Run End, once no sample is left to take (R94): an open segment, which there is when the run was
RUNNING, is flushed as at a Pause; otherwise the report is made when the last drained sample's record has
been appended, or at once when the drain gave none, whatever records of before still wait (log 24; run
control's request waits for those, R131). -/
def GeometryUnit.endRun (g : GeometryUnit) (sam : SamplingImage) (cls : Nat → Nat) : GeometryUnit :=
  match g.endFlush with
  | none => g
  | some drained =>
    if g.inbox.isEmpty then
      { (if g.segOpen then g.pause sam cls else if drained then g.awaitReport else g.reportNow) with
        endFlush := none }
    else g

/-- The class that a record written now carries for its point (R88). -/
def State.classFor (s : State) (m : Nat) : Nat := classAt s.exc.cls s.exc.classQueue m

/-- SPATIAL_SAMPLE_TAKE (R77, R91, R94): the geometry unit takes the oldest sample handed to it. -/
def execSpatialSampleTake (s : State) : Host.Outcome State Fault Refusal :=
  match s.geo.inbox with
  | [] => .next s
  | x :: rest =>
    let sam := s.store.committed.sampling
    let g := { s.geo with inbox := rest }.takeSample s.store.installedCal sam s.classFor x
    .next { s with geo := g.endRun sam s.classFor }.grant

/-- The geometry unit at the start of a segment: window and history empty, no segment start, nothing
pending, the segment open indicator set (R92, R93). -/
def GeometryUnit.openSegment (g : GeometryUnit) : GeometryUnit :=
  { g with window := [], history := [], segStart := none, pendingCount := 0, segOpen := true }

/-- The last point written in the segment, or none: the newest pair of the history, which paused
records do not enter (R76, R152, R153). -/
def GeometryUnit.segmentLast (g : GeometryUnit) : Option Nat := g.history.getLast?.map HistoryPair.point

end Sys2Proof.Machine
end

