-- ==== Sys2Proof/Machine/Exceedances.lean ====
section
/-! DEFINITION. Exceedances (07): what a tracker does on each zone, urgent conditions and mark
requests, closing, the trackers acting in turn, the evaluation of a point, and truncations. -/

namespace Sys2Proof.Machine

/-- What the evaluation of a point is made against: the installed limits, the current class, the
MARKING and SAMPLING images, and the POINT record (R109, R115). -/
structure Judging where
  limits : LimitsImage
  cls : Nat
  marking : MarkingImage
  sampling : SamplingImage
  record : PointRecord
deriving DecidableEq, Repr

/-- What the trackers of one evaluation or truncation change beside themselves: the exceedance number
(R127), the run counts (R134), the records handed on, and the marking unit. -/
structure Tally where
  number : Nat
  counts : ExceedanceCounts
  out : List Record
  marking : MarkingUnit
deriving DecidableEq, Repr

/-- Why an exceedance is closed (R120, R121, R122, R129). -/
inductive Closing where
  | count | absentRun | limitsLost | pause | runEnd
deriving DecidableEq, Repr

/-- The closing of a truncation's cause (R129). -/
def TruncationCause.closing : TruncationCause → Closing
  | .pause => .pause
  | .runEnd => .runEnd

/-! ## Opening and exceeding points (R116 to R118) -/

/-- The exceedance in progress as it is filled at its opening (R116). -/
def openedProgress (r : PointRecord) (cls level : Nat) (v : Int) : Progress :=
  { startPoint := r.point, startPosition := r.position, endPoint := r.point, endPosition := r.position
    level := level, peakPoint := r.point, peakPosition := r.position, peakValue := v
    classAtPeak := cls, speedAtPeak := r.speed, clearCount := 0, absentRun := 0
    containsAbsent := false, classChanged := false, correctionThroughEnd := r.corrected
    correctionSinceEnd := false, urgent := false, mark := none }

/-- Whether a value replaces the peak (R118). -/
def replacesPeak (e : Sense) (v peak : Int) : Bool :=
  match e with
  | .upper => decide (peak < v)
  | .lower => decide (v < peak)

/-- The peak judged at an EXCEEDING point (R118). -/
def Progress.judgePeak (g : Progress) (e : Sense) (r : PointRecord) (cls : Nat) (v : Int) : Progress :=
  if replacesPeak e v g.peakValue then
    { g with peakPoint := r.point, peakPosition := r.position, peakValue := v, classAtPeak := cls
             speedAtPeak := r.speed }
  else g

/-- Steps 1 to 5 of R117 at an EXCEEDING point of an open exceedance. -/
def Progress.exceed (g : Progress) (e : Sense) (r : PointRecord) (cls level : Nat) (v : Int) : Progress :=
  { g with
    level := max g.level level
    endPoint := r.point
    endPosition := r.position
    correctionThroughEnd := g.correctionThroughEnd || g.correctionSinceEnd || r.corrected
    correctionSinceEnd := false
    clearCount := 0
    absentRun := 0 }.judgePeak e r cls v

/-- The correction-since-end indicator at a point that does not move the end (R119 to R121). -/
def Progress.noteCorrection (g : Progress) (r : PointRecord) : Progress :=
  { g with correctionSinceEnd := g.correctionSinceEnd || r.corrected }

/-! ## Urgent conditions and marks (R124, R125) -/

/-- The URGENT record of a tracker at a point (R124). -/
def urgentRecord (c : Nat) (e : Sense) (r : PointRecord) (v : Int) : Record :=
  .urgent { channel := c, sense := e, point := r.point, position := r.position, value := v }

/-- R124 applied to an open exceedance. -/
def applyUrgent (x : Judging) (c : Nat) (e : Sense) (v : Int) (g : Progress) (y : Tally) :
    Progress × Tally :=
  if g.level = 3 ∧ g.urgent = false then
    ({ g with urgent := true },
      { y with out := y.out ++ [urgentRecord c e x.record v]
               counts := { y.counts with urgent := satInc 65535 y.counts.urgent } })
  else (g, y)

/-- R125 applied to an open exceedance: the request is answered at once (R137). -/
def applyMark (x : Judging) (c : Nat) (e : Sense) (g : Progress) (y : Tally) : Progress × Tally :=
  if x.marking.trigger ≤ g.level ∧ g.mark = none then
    let answer := y.marking.decideMark x.marking (markTarget x.sampling x.marking x.record.point)
      x.record.point (.tracker c e)
    ({ g with mark := some answer.2 }, { y with marking := answer.1 })
  else (g, y)

/-- The opening and every EXCEEDING point end with R124 and R125. -/
def applyBoth (x : Judging) (c : Nat) (e : Sense) (v : Int) (g : Progress) (y : Tally) :
    Tracker × Tally :=
  let urgent := applyUrgent x c e v g y
  let marked := applyMark x c e urgent.1 urgent.2
  (some marked.1, marked.2)

/-! ## Closing (R126 to R128) -/

/-- The length in points of an exceedance (R126). -/
def Progress.lengthPoints (g : Progress) : Nat := g.endPoint + 1 - g.startPoint

/-- The EXCEEDANCE record of an exceedance in progress at its closing (R128). -/
def exceedanceRecord (interval number c : Nat) (e : Sense) (why : Closing) (g : Progress) : Record :=
  .exceedance
    { number := number, channel := c, sense := e, level := g.level, classAtPeak := g.classAtPeak
      startPoint := g.startPoint, endPoint := g.endPoint, peakPoint := g.peakPoint
      startPosition := g.startPosition, endPosition := g.endPosition, peakPosition := g.peakPosition
      peakValue := g.peakValue, speed := g.speedAtPeak, length := g.lengthPoints * interval
      outcome := g.mark.getD .none
      containsAbsent := g.containsAbsent
      interrupted := why == .absentRun || (why == .limitsLost && !g.classChanged)
      truncatedByEnd := why == .runEnd
      truncatedByPause := why == .pause
      corrected := g.correctionThroughEnd
      classChanged := g.classChanged }

/-- The run counts with the count of a level raised (R134). -/
def ExceedanceCounts.raiseLevel (n : ExceedanceCounts) (level : Nat) : ExceedanceCounts :=
  match level with
  | 1 => { n with level1 := satInc 65535 n.level1 }
  | 2 => { n with level2 := satInc 65535 n.level2 }
  | _ => { n with level3 := satInc 65535 n.level3 }

/-- The closing of an exceedance: suppressed under the L_min in force, or numbered, recorded and
counted (R126). The tracker then is CLEAR. -/
def closeExceedance (l : LimitsImage) (sam : SamplingImage) (c : Nat) (e : Sense) (why : Closing)
    (g : Progress) (y : Tally) : Tally :=
  if g.lengthPoints < (l.paramsOf c).minLength then
    { y with counts := { y.counts with suppressed := satInc 65535 y.counts.suppressed } }
  else
    { y with
      number := y.number + 1
      out := y.out ++ [exceedanceRecord sam.interval (y.number + 1) c e why g]
      counts := y.counts.raiseLevel g.level }

/-- A tracker whose exceedance is closed at an evaluation. -/
def Judging.close (x : Judging) (c : Nat) (e : Sense) (why : Closing) (g : Progress) (y : Tally) :
    Tracker × Tally :=
  (none, closeExceedance x.limits x.sampling c e why g y)

/-! ## The tracker on each zone (R116 to R122) -/

/-- The value of a channel in a POINT record. -/
def PointRecord.value (r : PointRecord) (c : Nat) : Option Int := (r.channels.list.getD c absentChannel).value

/-- A CLEAR tracker (R116). -/
def judgeClear (x : Judging) (c : Nat) (e : Sense) (y : Tally) : Tracker × Tally :=
  match zoneOf x.limits c x.cls e (x.record.value c), x.record.value c with
  | .exceeding level, some v => applyBoth x c e v (openedProgress x.record x.cls level v) y
  | _, _ => (none, y)

/-- An OPEN tracker (R117 to R122). -/
def judgeOpen (x : Judging) (c : Nat) (e : Sense) (g : Progress) (y : Tally) : Tracker × Tally :=
  let k := x.limits.paramsOf c
  match zoneOf x.limits c x.cls e (x.record.value c) with
  | .exceeding level =>
    let v := (x.record.value c).getD 0
    applyBoth x c e v (g.exceed e x.record x.cls level v) y
  | .band => (some { g.noteCorrection x.record with absentRun := 0 }, y)
  | .inside =>
    let g' := { g.noteCorrection x.record with clearCount := g.clearCount + 1, absentRun := 0 }
    if k.closeCount ≤ g'.clearCount then x.close c e .count g' y else (some g', y)
  | .absent =>
    let g' := { g.noteCorrection x.record with containsAbsent := true, absentRun := g.absentRun + 1 }
    if k.absentRun ≤ g'.absentRun then x.close c e .absentRun g' y else (some g', y)
  | .noLimit => x.close c e .limitsLost g y

/-- A tracker at an evaluation (R116, R117). -/
def judge (x : Judging) (c : Nat) (e : Sense) (t : Tracker) (y : Tally) : Tracker × Tally :=
  match t with
  | none => judgeClear x c e y
  | some g => judgeOpen x c e g y

/-- The channel of a tracker by its number (7.1). -/
def trackerChannel (i : Nat) : Nat := i / 2

/-- The sense of a tracker by its number (7.1). -/
def trackerSense (i : Nat) : Sense := if i % 2 = 0 then .upper else .lower

/-! ## Acting in turn (R115, R127, R129) -/

/-- Trackers acting in tracker order, the first of them being number `i`: each acts only while no record
waits, so the trackers behind one that forms a record stay as they are until it has been appended. The
answer is the trackers, what they have changed beside themselves, and the number of the next to act. -/
def actInTurn (act : Nat → Tracker → Tally → Tracker × Tally) :
    Nat → List Tracker → Tally → List Tracker × Tally × Nat
  | i, [], y => ([], y, i)
  | i, t :: ts, y =>
    if y.out.isEmpty then
      let one := act i t y
      let rest := actInTurn act (i + 1) ts one.2
      (one.1 :: rest.1, rest.2)
    else (t :: ts, y, i)

/-- The exceedance unit's values that its trackers may change. -/
def ExceedanceUnit.tally (u : ExceedanceUnit) (m : MarkingUnit) : Tally :=
  { number := u.number, counts := u.counts, out := u.out, marking := m }

/-- The exceedance unit after its trackers have acted. -/
def ExceedanceUnit.settle (u : ExceedanceUnit) (ts : List Tracker) (y : Tally) (turn : Option Turn) :
    ExceedanceUnit :=
  { u with trackers := ts, number := y.number, counts := y.counts, out := y.out, turn := turn }

/-- The trackers from number `next` on act in turn. While one of them has still to act, `rest` of its
number is the turn in progress. -/
def State.actFrom (s : State) (act : Nat → Tracker → Tally → Tracker × Tally) (next : Nat)
    (rest : Nat → Turn) : State :=
  let done := actInTurn act next (s.exc.trackers.drop next) (s.exc.tally s.marking)
  let ts := s.exc.trackers.take next ++ done.1
  let turn := if done.2.2 < ts.length then some (rest done.2.2) else none
  { s with exc := s.exc.settle ts done.2.1 turn, marking := done.2.1.marking }

/-! ## Evaluation (R109, R115) -/

/-- The CLASS record of an applied entry (R110). -/
def classRecord (r : PointRecord) (previous : Nat) (e : ClassEntry) : Record :=
  .cls { point := r.point, position := r.position, newClass := e.cls, previous := previous
         requested := e.requested, port := e.port }

/-- Step 2 of R109: the first entry of the class queue is applied when its effective point is the
point evaluated. -/
def ExceedanceUnit.applyClass (u : ExceedanceUnit) (r : PointRecord) : ExceedanceUnit :=
  match u.classQueue with
  | [] => u
  | e :: rest =>
    if e.effective = r.point then
      { u with cls := e.cls, classQueue := rest, out := u.out ++ [classRecord r u.cls e] }
    else u

/-- The OPEN trackers with the class-changed indicator set, when the class has changed (R123). -/
def noteClassChange (before after : Nat) (ts : List Tracker) : List Tracker :=
  if before = after then ts
  else ts.map (fun t => t.map (fun g => { g with classChanged := true }))

/-- What the point of `r` is judged against (R109). -/
def State.judging (s : State) (r : PointRecord) : Judging :=
  { limits := s.store.installedLim, cls := s.exc.cls, marking := s.store.committed.marking
    sampling := s.store.committed.sampling, record := r }

/-- The trackers from number `next` on act on their zones at the point of `r` (step 3 of R115). The MARKING
image and R_m are those of the moment at which each acts (R125, R137). -/
def State.judgeFrom (s : State) (r : PointRecord) (next : Nat) : State :=
  s.actFrom (fun i => judge (s.judging r) (trackerChannel i) (trackerSense i)) next (.point r)

/-- The start of the evaluation of POINT record `r`, with the rest of the evaluation list (R115). The
trackers act up to the first that forms a record, and none before a CLASS record formed here has been
appended; the others act as the appends come (`State.goOn`; log 34). A paused record reaches no tracker, and
so sets no class-changed indicator either (R115, R130; log 23). -/
def State.evaluate (s : State) (r : PointRecord) (rest : List EvalItem) : State :=
  let u := { s.exc with evalList := rest, evaluated := r.point }.applyClass r
  let started := { s with store := s.store.takeUpLimits, exc := u }
  if r.paused then started
  else
    State.judgeFrom
      { started with exc := { u with trackers := noteClassChange s.exc.cls u.cls u.trackers } } r 0

/-- Whether everything that the previous item caused has been done (R114). -/
def ExceedanceUnit.ready (u : ExceedanceUnit) : Bool := u.out.isEmpty && u.turn.isNone

/-- POINT_EVALUATION (R115): the exceedance unit takes the POINT record at the front of its list, once
everything the previous item caused has been done (R114). -/
def execPointEvaluation (s : State) : Host.Outcome State Fault Refusal :=
  match s.exc.evalList with
  | .point r :: rest => if s.exc.ready then .next (s.evaluate r rest).grant else .next s
  | _ => .next s

/-! ## Truncation (R129 to R131) -/

/-- A tracker at a truncation: an OPEN one is closed (R129). -/
def truncateTracker (l : LimitsImage) (sam : SamplingImage) (why : Closing) (c : Nat) (e : Sense)
    (t : Tracker) (y : Tally) : Tracker × Tally :=
  (none, match t with
    | none => y
    | some g => closeExceedance l sam c e why g y)

/-- The number of OPEN trackers. -/
def openCount (ts : List Tracker) : Nat := (ts.filter Option.isSome).length

/-- A truncation whose trackers have all been handled: its report is due when the last record has been
appended, and for the cause END a staged LIMITS image is installed (R101, R129, R131). -/
def State.truncated (s : State) (cause : TruncationCause) (closed : Nat) : State :=
  { s with
    exc := { s.exc with
      truncation := some { cause := cause, closed := closed, left := s.exc.out.length } }
    store := match cause with
      | .pause => s.store
      | .runEnd => s.store.takeUpLimits }

/-- The trackers from number `next` on are closed in turn by a truncation that closes `closed` of them
(R129). -/
def State.truncateFrom (s : State) (cause : TruncationCause) (closed next : Nat) : State :=
  let act (i : Nat) := truncateTracker s.store.installedLim s.store.committed.sampling cause.closing
    (trackerChannel i) (trackerSense i)
  let t := s.actFrom act next (.truncation cause closed)
  if t.exc.turn.isSome then t else t.truncated cause closed

/-- The taking of a truncation request (R129): the trackers are closed up to the first that forms a record,
and the others as the appends come (`State.goOn`; log 34). -/
def State.truncate (s : State) (cause : TruncationCause) (rest : List EvalItem) : State :=
  State.truncateFrom { s with exc := { s.exc with evalList := rest } } cause (openCount s.exc.trackers) 0

/-- TRUNCATION (R129): the exceedance unit takes the truncation request at the front of its list, once
everything the previous item caused has been done (R114). -/
def execTruncation (s : State) : Host.Outcome State Fault Refusal :=
  match s.exc.evalList with
  | .truncation cause :: rest =>
    if s.exc.ready then .next (s.truncate cause rest).grant else .next s
  | _ => .next s

/-! ## Going on after an append (R115, R127, R129) -/

/-- The evaluation or the truncation in progress goes on with the next tracker. -/
def State.goOn (s : State) : State :=
  match s.exc.turn with
  | none => s
  | some (.point r next) => s.judgeFrom r next
  | some (.truncation cause closed next) => s.truncateFrom cause closed next

end Sys2Proof.Machine
end

