-- ==== Sys2Proof/Machine/Ring.lean ====
section
/-! DEFINITION. The record ring and its delivery (10) with the requests on streams (12.4): the append
of a record, Stream Start, Pause, Resume and Stop, and Read Records. -/

namespace Sys2Proof.Machine

/-! ## Appending (R163) -/

/-- Steps 1 to 4 of R163. -/
def Ring.append (r : Ring) (w : Writer) (run : Nat) (body : Record) : Ring :=
  let entry : RingRecord := { sequence := r.head, run := run, body := body }
  let full := decide (Config.ringCapacity ≤ r.contents.length)
  { contents := (if full then r.contents.tail else r.contents) ++ [entry]
    head := r.head + 1
    oldest := if full then r.oldest + 1 else r.oldest
    rotation := w
    granted := none }

/-- A port's refill at an event of R167, made while its stream is ACTIVE. -/
def PortState.refillActive (q : PortState) (r : Ring) : PortState :=
  if q.stream = .active then q.refill r else q

/-- Run control told that its record has been appended: START hands the Run Start on (step 3 of R150),
RESUME sets the run state and hands the Run Resume on (step 2 of R154), PAUSE and END are completed. -/
def RunControl.told (c : RunControl) : RunControl :=
  match c.op with
  | none => c
  | some o =>
    match o.stage with
    | .recordWaiting =>
      match o.what with
      | .start _ _ _ => { c with op := some { o with stage := .starting false false false } }
      | .resume => { c with op := some { o with stage := .geometryResuming }, state := .running }
      | .pause _ | .finish => { c with op := some { o with stage := .completing } }
    | _ => c

/-- The geometry unit told that its record has been appended (R89, R90). -/
def GeometryUnit.told (g : GeometryUnit) : GeometryUnit :=
  { g with out := g.out.tail, flushLeft := g.flushLeft.map (fun n => n - 1) }

/-- The distance base when a POINT record has been appended: one fewer stands before each FIX (R34). -/
def DistanceBase.pointAppended (b : DistanceBase) : DistanceBase :=
  { b with out := b.out.map (fun w => { w with behind := w.behind - 1 }) }

/-- The distance base when run control's record has been appended: the RUN_START record no longer stands
before a FIX (R150, R164). -/
def DistanceBase.startAppended (b : DistanceBase) : DistanceBase :=
  { b with out := b.out.map (fun w => { w with behindStart := false }) }

/-- The exceedance unit told that its record has been appended (R129). -/
def ExceedanceUnit.told (u : ExceedanceUnit) : ExceedanceUnit :=
  { u with out := u.out.tail, truncation := u.truncation.map (fun t => { t with left := t.left - 1 }) }

/-- Step 6 of R163: the writer is told that its record has been appended. The geometry unit then hands
the record to the exceedance unit (R89); the exceedance unit goes on with the evaluation or the truncation
in progress, whose next tracker acts only now (R115, R127, R129; log 34). -/
def State.tellWriter (s : State) (w : Writer) : State :=
  match w with
  | .geometry =>
    { s with
      geo := s.geo.told
      base := s.base.pointAppended
      exc := { s.exc with evalList := s.exc.evalList ++ (s.geo.out.take 1).map .point } }
  | .exceedance => { s with exc := s.exc.told }.goOn
  | .marking => { s with marking := { s.marking with out := s.marking.out.tail } }
  | .base => { s with base := { s.base with out := s.base.out.tail } }
  | .runControl =>
    { s with
      base := s.base.startAppended
      run := { s.run.told with out := s.run.out.tail } }

/-- The append of a granted record (R163). -/
def State.appendRecord (s : State) (w : Writer) (body : Record) : State :=
  let ring := s.ring.append w s.run.number body
  State.tellWriter { s with ring := ring, ports := s.ports.map (fun q => q.refillActive ring) } w

/-- RING_APPEND (R163): the granted record is appended, and of the records that then wait the next one is
granted. -/
def execRingAppend (s : State) : Host.Outcome State Fault Refusal :=
  match s.nextGrant with
  | none => .next s
  | some w =>
    match s.waiting w with
    | none => .next s
    | some body => .next (s.appendRecord w body).grant

/-! ## Flushing a transmit queue (R170) -/

/-- The resume number of a delivery item (R170). -/
def DeliveryItem.resumeNumber : DeliveryItem → Word32
  | .record r => r.sequence
  | .gap first _ => first

/-- Whether the frame in transmission is that of a stream item. -/
def PortState.sendsStream (q : PortState) : Bool :=
  match q.tx with
  | some t => match t.what with | .stream _ => true | .reply _ => false
  | none => false

/-- A flush that keeps the first `kept` items: the others leave, and the cursor is set back to the
resume number of the first that leaves (R170). -/
def PortState.flush (q : PortState) (kept : Nat) : PortState :=
  { q with
    txQueue := q.txQueue.take kept
    cursor := match q.txQueue.drop kept with
      | [] => q.cursor
      | i :: _ => i.resumeNumber }

/-- The flush of a Stream Stop: an item in transmission is kept (R170, R193). -/
def PortState.flushAtStop (q : PortState) : PortState := q.flush (if q.sendsStream then 1 else 0)

/-! ## Streams (R169, R191 to R193) -/

/-- The cursor a starting choice gives (R169). -/
def startCursor (ring : Ring) (cursor : Word32) (choice : StartChoice) (s : Word32) : Word32 :=
  match choice with
  | .oldest => ring.oldest
  | .newest => if ring.contents.isEmpty then ring.head else ring.head - 1
  | .sequence => s
  | .continue_ => cursor

/-- A port with a Stream Start's filter, decimation, tag and cursor installed; with CONTINUE an
overrun is recognized at once (R165, R168, R169). -/
def PortState.installStream (q : PortState) (ring : Ring) (r : Request) (choice : StartChoice) :
    PortState :=
  let q' := { q with
    filter := BitVec.ofNat 16 (r.field 0 2)
    decimation := r.field 2 1
    streamTag := r.tag
    cursor := startCursor ring q.cursor choice (r.word 4) }
  if choice = .continue_ ∧ ring.isBehind q'.cursor then q'.overrunAt ring else q'

/-- A port whose stream becomes ACTIVE: the OK response is placed, then the refill is made (R191). -/
def PortState.activate (q : PortState) (ring : Ring) (r : Request) : PortState :=
  (({ q with stream := .active, requests := q.requests.tail }.respond r.code r.tag .ok []).refill ring)

/-- The admitted checks of R169 after the starting choice, on SEQUENCE. -/
def sequenceRefusal (ring : Ring) (choice : StartChoice) (s : Word32) : Option Completion :=
  match choice with
  | .sequence => if ring.isAhead s then some .notYet else if ring.isGone s then some .gone else none
  | .oldest | .newest | .continue_ => none

/-- STREAM_START (R169, R191). -/
def execStreamStart (p : Port) (s : State) : Host.Outcome State Fault Refusal :=
  .next (s.serve p 14 8 fun r =>
    let d := r.field 2 1
    if (s.ports.get p).stream ≠ .none then s.refuse p r .streamActive
    else if d < 1 ∨ 64 < d then s.refuseField p r 1
    else match startChoiceOf (r.field 3 1) with
      | none => s.refuseField p r 2
      | some choice =>
        match sequenceRefusal s.ring choice (r.word 4) with
        | some c => s.refuse p r c
        | none => s.modPort p (fun q => (q.installStream s.ring r choice).activate s.ring r))

/-- The pending Pause is answered and becomes none (R192, R193). -/
def PortState.answerPause (q : PortState) : PortState :=
  match q.pendingPause with
  | none => q
  | some tag => { q with pendingPause := none }.respond 15 tag .ok []

/-- A PAUSING stream whose transmit queue is empty becomes PAUSED, and its Pause is answered (R192). -/
def PortState.drainPause (q : PortState) : PortState :=
  if q.stream = .pausing ∧ q.txQueue = [] then { q with stream := .paused }.answerPause else q

/-- STREAM_PAUSE (R192). -/
def execStreamPause (p : Port) (s : State) : Host.Outcome State Fault Refusal :=
  .next (s.serve p 15 0 fun r =>
    match (s.ports.get p).stream with
    | .none => s.refuse p r .noStream
    | .pausing | .paused => s.refuse p r .wrongState
    | .active =>
      s.modPort p (fun q =>
        { q with stream := .pausing, pendingPause := some r.tag, requests := q.requests.tail }.drainPause))

/-- STREAM_RESUME (R191, R193). -/
def execStreamResume (p : Port) (s : State) : Host.Outcome State Fault Refusal :=
  .next (s.serve p 16 0 fun r =>
    match (s.ports.get p).stream with
    | .none => s.refuse p r .noStream
    | .active => s.refuse p r .wrongState
    | .paused => s.modPort p (fun q => q.activate s.ring r)
    | .pausing => s.modPort p (fun q => q.answerPause.activate s.ring r))

/-- STREAM_STOP (R170, R193). -/
def execStreamStop (p : Port) (s : State) : Host.Outcome State Fault Refusal :=
  .next (s.serve p 17 0 fun r =>
    match (s.ports.get p).stream with
    | .none => s.refuse p r .noStream
    | .active | .pausing | .paused =>
      (s.modPort p (fun q => { q.answerPause with stream := .none }.flushAtStop)).answerOk p r [])

/-! ## Read Records (R171) -/

/-- The number of records a Read Records asks for: 0 means 256 (R171). -/
def readCount (n : Nat) : Nat := if n = 0 then 256 else n

/-- The read list is fixed and its first record placed (R171, R194). -/
def PortState.beginRead (q : PortState) (tag : Word16) (records : List RingRecord) : PortState :=
  { q with readJob := some { tag := tag, remaining := records, count := records.length } }.readNext.kick

/-- READ_RECORDS (R171). -/
def execReadRecords (p : Port) (s : State) : Host.Outcome State Fault Refusal :=
  .next (s.serve p 18 6 fun r =>
    let first := r.word 0
    let count := r.field 4 2
    if 256 < count then s.refuseField p r 1
    else if s.ring.isPresent first then
      s.modPort p (fun q =>
        q.beginRead r.tag ((s.ring.recordsFrom first).take (readCount count)))
    else if s.ring.isGone first then s.refuse p r .gone
    else s.refuse p r .notYet)

end Sys2Proof.Machine
end

