-- ==== Sys2Proof/Machine/Links.lean ====
section
/-! DEFINITION. Survey links (12): frames delivered, loss of signal, the end of a transmitted frame,
unknown requests, Identify and Set Port Options. -/

namespace Sys2Proof.Machine

/-! ## Frames and requests (R186, R188, R189) -/

/-- A good frame taken as a request: the link is UP, and the request is queued, or answered with BUSY
when the queue holds 4 and the reply queue has room (R186, R189, R194). -/
def PortState.takeRequest (q : PortState) (r : Request) : PortState :=
  let q' := { q with link := .up }
  if q'.requests.length < Config.requestCapacity then { q' with requests := q'.requests ++ [r] }
  else if q'.replies.length < Config.replyRoom then q'.respond r.code r.tag .busy []
  else q'

/-- A frame delivered at a port (R188). -/
def PortState.takeFrame (q : PortState) (bytes : List Byte) : PortState :=
  match checkLinkFrame bytes with
  | .framing => { q with framing := satInc 65535 q.framing }
  | .crc => { q with crc := satInc 65535 q.crc }
  | .good r => q.takeRequest r

/-- LINK_FRAME (R186, R188, R189). -/
def execLinkFrame (p : Port) (bytes : List Byte) (s : State) : Host.Outcome State Fault Refusal :=
  .next (s.modPort p (fun q => q.takeFrame bytes))

/-! ## Loss of signal (R187) -/

/-- A port whose link becomes DOWN (R170, R173, R178, R183, R187). -/
def PortState.goDown (q : PortState) : PortState :=
  { q.flush 0 with
    link := .down, requests := [], replies := [], tx := none, stream := .none, readJob := none
    pendingPause := none, await := none, reservation := none }

/-- LOSS_OF_SIGNAL (R186, R187, R198): on a DOWN link nothing happens; when the port's own Reset Part
waits for its response to be sent, the reset is applied. -/
def execLossOfSignal (p : Port) (s : State) : Host.Outcome State Fault Refusal :=
  match (s.ports.get p).link with
  | .down => .next s
  | .up =>
    let s' := s.modPort p PortState.goDown
    if s.resetPending = some p then .next s'.applyReset else .next s'

/-! ## The end of a frame (R165, R192, R194, R198) -/

/-- Whether a reply-queue item is the OK response of a Reset Part (R198). -/
def ReplyItem.isResetOk : ReplyItem → Bool
  | .response r => r.code == 22 && r.completion == .ok
  | .notice _ | .readRecord _ _ _ => false

/-- A port when its transmitter has sent a reply whole: the next frame is taken (R194). -/
def PortState.replySent (q : PortState) : PortState := { q with tx := none }.kick

/-- A port when its transmitter has sent a stream item whole: the item leaves the transmit queue, an
ACTIVE stream is refilled, a drained Pause is answered, and the next frame is taken (R165, R167, R192,
R194). -/
def PortState.streamSent (q : PortState) (ring : Ring) : PortState :=
  (({ q with tx := none, txQueue := q.txQueue.tail }.refillQueue ring).drainPause).kick

/-- TRANSMIT_FRAME_END (R194): with nothing in transmission nothing happens. Once the OK response of a
Reset Part has been sent the reset is applied (R198). -/
def execTransmitFrameEnd (p : Port) (s : State) : Host.Outcome State Fault Refusal :=
  match (s.ports.get p).tx with
  | none => .next s
  | some t =>
    match t.what with
    | .reply i =>
      if s.resetPending = some p ∧ i.isResetOk then .next s.applyReset
      else .next (s.modPort p PortState.replySent)
    | .stream _ => .next (s.modPort p (fun q => q.streamSent s.ring))

/-! ## Requests of the port itself (R190, R195, R196) -/

/-- Whether a code names a request of the part (13.3). -/
def knownCode (c : Byte) : Bool := decide (1 ≤ c.toNat) && decide (c.toNat ≤ 22)

/-- UNKNOWN_REQUEST (R190). -/
def execUnknownRequest (p : Port) (s : State) : Host.Outcome State Fault Refusal :=
  if s.dispatchBlocked p then .next s
  else match (s.ports.get p).requests with
    | [] => .next s
    | r :: _ => if knownCode r.code then .next s else .next (s.refuse p r .unknownRequest)

/-- The OK body of Identify (R196, 13.7). -/
def identifyFields : List Field :=
  [natField 2 Config.partCode, natField 1 Config.revision.toNat, natField 2 Config.ringCapacity,
    natField 1 4, natField 1 3, natField 1 16, natField 1 Config.markCapacity,
    natField 1 Config.classCapacity]
    ++ [natField 2 1000, natField 2 2000, natField 2 4000]
    ++ [natField 2 100, natField 2 200, natField 2 250, natField 2 500]
    ++ [natField 1 (bitsNat [Config.serialValid, Config.calibrationValid]),
      natField 4 Config.serialNumber.toNat, natField 2 Config.calibrationYear.toNat,
      natField 1 Config.calibrationMonth.toNat, natField 1 Config.calibrationDay.toNat]

/-- IDENTIFY (R196). -/
def execIdentify (p : Port) (s : State) : Host.Outcome State Fault Refusal :=
  .next (s.serve p 1 0 fun r => s.answerOk p r identifyFields)

/-- SET_PORT_OPTIONS (R195). -/
def execSetPortOptions (p : Port) (s : State) : Host.Outcome State Fault Refusal :=
  .next (s.serve p 6 2 fun r =>
    match overrunOf (r.field 0 1) with
    | none => s.refuseField p r 0
    | some mode =>
      (s.modPort p (fun q => { q with overrun := mode, mask := maskOf (r.field 1 1) })).answerOk p r [])

end Sys2Proof.Machine
end

