-- ==== Sys2Proof/Machine/Points.lean ====
section
/-! DEFINITION. Points and track position (02): run travel, point generation, the pending correction,
position fixes and the distance strobe outputs. -/

namespace Sys2Proof.Machine

/-! ## Distance strobe lines (R38, R39) -/

/-- Whether a pulse can begin on a line. -/
def DsLine.free : DsLine → Bool
  | .inactive | .ready => true
  | .active | .between => false

/-- Whether a point is due a pulse on a line. -/
def DsPulses.on (x : DsPulses) : DsId → Bool
  | .ds0 => x.ds0
  | .ds1 => x.ds1

/-- Whether two points are due pulses on one line. -/
def DsPulses.share (x y : DsPulses) : Bool := (x.ds0 && y.ds0) || (x.ds1 && y.ds1)

/-- A line of the outputs. -/
def DsOutputs.line (o : DsOutputs) : DsId → DsLine
  | .ds0 => o.ds0
  | .ds1 => o.ds1

/-- The outputs with one line replaced. -/
def DsOutputs.setLine (o : DsOutputs) (l : DsId) (d : DsLine) : DsOutputs :=
  match l with
  | .ds0 => { o with ds0 := d }
  | .ds1 => { o with ds1 := d }

/-- Whether a point's pulses can begin: each of its lines is free, and no earlier point waits for one of
them. -/
def DsOutputs.begins (o : DsOutputs) (x : DsPulses) : Bool :=
  (!x.ds0 || o.ds0.free) && (!x.ds1 || o.ds1.free) && o.due.all (fun y => !x.share y)

/-- The pulses of a point: they begin together, at once or when each of its lines is free (R38, R39). -/
def DsOutputs.pulse (o : DsOutputs) (x : DsPulses) : DsOutputs :=
  if o.begins x then
    { o with
      ds0 := if x.ds0 then .active else o.ds0
      ds1 := if x.ds1 then .active else o.ds1 }
  else { o with due := o.due ++ [x] }

/-- The waiting points tried again in their order. -/
def DsOutputs.settle (o : DsOutputs) : DsOutputs := o.due.foldl DsOutputs.pulse { o with due := [] }

/-- The end of the 10 µs running on a line (R39): a pulse ends, and the 10 µs before the next pulse begin
where a point waits for the line; or those end, and the point's pulses begin when its lines are free
(log 4). -/
def DsOutputs.expire (o : DsOutputs) (l : DsId) : DsOutputs :=
  let awaited := o.due.any (fun x => x.on l)
  match o.line l with
  | .inactive | .ready => o
  | .active => o.setLine l (if awaited then .between else .inactive)
  | .between => (o.setLine l (if awaited then .ready else .inactive)).settle

/-- The pulses of point `j` under the divisors of a SAMPLING image (R38). -/
def dsPulses (sam : SamplingImage) (j : Nat) : DsPulses :=
  { ds0 := j % sam.d0 == 0, ds1 := j % sam.d1 == 0 }

/-- DISTANCE_STROBE_END (R39). -/
def execDistanceStrobeEnd (line : DsId) (s : State) : Host.Outcome State Fault Refusal :=
  .next { s with base := { s.base with ds := s.base.ds.expire line } }

/-! ## Correction and position (R30 to R32) -/

/-- The step of the pending correction applied at one generated point (R31). -/
def correctionStep (o : OdometryImage) (c : Int) : Int :=
  match o.fixMode with
  | .step => c
  | .blend => if 0 ≤ c then min c o.blendRate else max c (-(o.blendRate : Int))

/-- The sign s of an orientation (R30). -/
def Orientation.sign : Orientation → Int
  | .up => 1
  | .down => -1

/-- The position of point `j` before it is clamped (R30). -/
def DistanceBase.rawPosition (b : DistanceBase) (interval j : Nat) : Int :=
  b.offset + b.orientation.sign * j * interval

/-- The largest track position, in mm (R30). -/
def maxPosition : Int := 999999999

/-- A position clamped to 0..999,999,999 (R30). -/
def clampPosition (x : Int) : Nat := (max 0 (min maxPosition x)).toNat

/-- Whether a position was clamped (R30). -/
def positionLimited (x : Int) : Bool := decide (x < 0) || decide (maxPosition < x)

/-! ## Generation (R23 to R26, R29) -/

/-- The generation of point `j` at a strobe with run travels `left` and `right` (R24). -/
def DistanceBase.generate (b : DistanceBase) (sam : SamplingImage) (o : OdometryImage) (k : Word32)
    (left right : Int) (j : Nat) : DistanceBase :=
  let step := correctionStep o b.correction
  let b1 := { b with offset := b.offset + step, correction := b.correction - step }
  let raw := b1.rawPosition sam.interval j
  let entry : PointEntry :=
    { point := j, strobe := k, target := j * intervalMicrons sam, left := left, right := right
      position := clampPosition raw, corrected := b.correction != 0, limited := positionLimited raw }
  { b1 with
    queue := b1.queue ++ [entry]
    last := j
    ds := b1.ds.pulse (dsPulses sam j) }

/-- The generation of `n` points from point `j` on, in ascending order (step 2 of R23). -/
def DistanceBase.generateFrom (b : DistanceBase) (sam : SamplingImage) (o : OdometryImage) (k : Word32)
    (left right : Int) : Nat → Nat → DistanceBase
  | _, 0 => b
  | j, n + 1 => (b.generate sam o k left right j).generateFrom sam o k left right (j + 1) n

/-- The number of points j with H < j × I_µ ≤ R_k (step 2 of R23). -/
def newPoints (sam : SamplingImage) (high r : Int) : Nat :=
  (r / intervalMicrons sam - high / intervalMicrons sam).toNat

/-- The first such point: the first multiple of I_µ above H (R26). -/
def firstNewPoint (sam : SamplingImage) (high : Int) : Nat := (high / intervalMicrons sam + 1).toNat

/-- Steps 1 to 3 of R23 on a strobe's items; the bracket travels are R_{k−1} = R_k − Δ_k and R_k
(R27, R29). -/
def DistanceBase.takeItems (b : DistanceBase) (sam : SamplingImage) (o : OdometryImage)
    (i : StrobeItems) : DistanceBase :=
  let r := i.net - b.n0
  let b1 := { b with net := i.net }
  if b.running then
    let b2 := b1.generateFrom sam o i.strobe (r - i.delta) r (firstNewPoint sam b.high)
      (newPoints sam b.high r)
    { b2 with high := max b.high r }
  else b1

/-- DISTANCE_BASE_STROBE (R23): the distance base takes the oldest strobe items handed to it, hands the
run travel to the marking unit while the run indicator is set (R140; a firing is dated by this taking,
R141, log 3), and every set that its taking makes ready is released (R65). -/
def execDistanceBaseStrobe (s : State) : Host.Outcome State Fault Refusal :=
  match s.base.inbox with
  | [] => .next s
  | i :: rest =>
    let images := s.store.committed
    let base := { s.base with inbox := rest }.takeItems images.sampling images.odometry i
    let marking :=
      if s.base.running then
        s.marking.take images.marking (i.net - s.base.n0) i.strobe s.time (s.run.state == .paused)
      else s.marking
    .next { s with base := base, marking := marking }.grant.releaseReady

/-! ## Position fixes (R33 to R36) -/

/-- The error e of a fix: P_f − (Q + s × f × I) (R33). -/
def DistanceBase.fixError (b : DistanceBase) (interval f truePosition : Nat) : Int :=
  truePosition - b.rawPosition interval f

/-- The first bad field of a Position Fix, if any (R33). -/
def badFixField (f truePosition : Nat) : Option Nat :=
  if f = 0 then some 0 else if 999999999 < truePosition then some 1 else none

/-- A refusal counted among the fixes refused (R36). -/
def State.refuseFix (s : State) (p : Port) (r : Request) (c : Completion) (fields : List Field) : State :=
  { s with base := { s.base with fixesRefused := satInc 65535 s.base.fixesRefused } }.answer p r c fields

/-- Whether the RUN_START record of a START has not been appended yet (step 2 of R150). -/
def RunControl.startWaiting (c : RunControl) : Bool :=
  match c.op with
  | none => false
  | some o =>
    match o.what with
    | .start _ _ _ => o.stage == .recordWaiting
    | .pause _ | .resume | .finish => false

/-- POSITION_FIX (R33, R34, R36, R156). -/
def execPositionFix (p : Port) (s : State) : Host.Outcome State Fault Refusal :=
  .next (s.serve p 11 9 fun r =>
    let f := r.field 0 4
    let truePosition := r.field 4 4
    let force := r.field 8 1 != 0
    let e := s.base.fixError s.store.committed.sampling.interval f truePosition
    if !(s.access p).position then s.refuse p r .notPermitted
    else if s.requestRunState = .idle then s.refuse p r .wrongState
    else match badFixField f truePosition with
      | some index => s.refuseField p r index
      | none =>
        if s.base.last < f then s.refuseFix p r .pointAhead []
        else if 4096 < s.base.last - f then s.refuseFix p r .tooOld []
        else if !force && decide (s.store.committed.odometry.fixWindow < e.natAbs) then
          s.refuseFix p r .outOfWindow [⟨8, e⟩]
        else
          let remainder := s.base.correction
          let waiting : WaitingFix :=
            { record := { point := f, truePosition := truePosition, error := e, remainder := remainder
                          force := force }
              behind := s.geo.out.length
              behindStart := s.run.startWaiting }
          { s with base := { s.base with
              correction := e
              fixesApplied := satInc 65535 s.base.fixesApplied
              out := s.base.out ++ [waiting] } }.grant.answerOk p r [⟨8, e⟩, ⟨8, remainder⟩])

end Sys2Proof.Machine
end

