-- ==== Sys2Proof/Machine/Runs.lean ====
section
/-! DEFINITION. Runs (09): the four run requests, the stages of the run operations, and their
completion. -/

namespace Sys2Proof.Machine

/-! ## The requests (R148, R149) -/

/-- The run number after a Run Start (R149). -/
def nextRunNumber (n : Nat) : Nat := if n = 65535 then 1 else n + 1

/-- Run control with the operation in progress set (R148). -/
def RunControl.begin (c : RunControl) (p : Port) (r : Request) (what : RunOperation) (stage : Stage) :
    RunControl :=
  { c with op := some { port := p, tag := r.tag, previous := c.state, what := what, stage := stage } }

/-- The operation in progress moved to a stage. -/
def RunControl.atStage (c : RunControl) (stage : Stage) : RunControl :=
  { c with op := c.op.map (fun o => { o with stage := stage }) }

/-- The stage of the operation in progress, if any. -/
def RunControl.stage? (c : RunControl) : Option Stage := c.op.map Operation.stage

/-- The first two checks of R148 and the third against the admitted run states. -/
def State.runRefusal (s : State) (p : Port) (admitted : List RunState) : Option Completion :=
  if !(s.access p).runControl then some .notPermitted
  else if s.run.op.isSome then some .wrongState
  else if admitted.contains s.run.state then none
  else some .wrongState

/-- The first bad field of a Run Start, if any (R148). -/
def badStartField (position orientation cls : Nat) : Option Nat :=
  if 999999999 < position then some 0
  else if 1 < orientation then some 1
  else if 3 < cls then some 2
  else none

/-- The RUN_START record (R151). -/
def runStartRecord (s : State) (p : Port) (position : Nat) (o : Orientation) (cls : Nat) : Record :=
  let sam := s.store.committed.sampling
  .runStart { port := p, position := position, orientation := o, cls := cls, interval := sam.interval
              rate := sam.rate, delay := emissionDelay sam, generations := s.store.generations }

/-- RUN_START (R148 to R151): steps 1 and 2 of R150. -/
def execRunStart (p : Port) (s : State) : Host.Outcome State Fault Refusal :=
  .next (s.serve p 7 6 fun r =>
    let position := r.field 0 4
    let orientation := r.field 4 1
    let cls := r.field 5 1
    match s.runRefusal p [.idle] with
    | some c => s.refuse p r c
    | none =>
      match badStartField position orientation cls with
      | some index => s.refuseField p r index
      | none =>
        let o := (orientationOf orientation).getD .up
        let begun := s.run.begin p r (.start position o cls) .recordWaiting
        { s with run := { begun with
            state := .running
            number := nextRunNumber s.run.number
            out := begun.out ++ [runStartRecord s p position o cls] } }.grant.finishRequest p)

/-- RUN_PAUSE (R148, R152): step 1 of R152. -/
def execRunPause (p : Port) (s : State) : Host.Outcome State Fault Refusal :=
  .next (s.serve p 8 0 fun r =>
    match s.runRefusal p [.running] with
    | some c => s.refuse p r c
    | none =>
      let begun := s.run.begin p r (.pause s.base.last) .geometryPausing
      { s with run := { begun with state := .paused } }.finishRequest p)

/-- RUN_RESUME (R148, R154): step 1 of R154. -/
def execRunResume (p : Port) (s : State) : Host.Outcome State Fault Refusal :=
  .next (s.serve p 9 0 fun r =>
    match s.runRefusal p [.paused] with
    | some c => s.refuse p r c
    | none =>
      let begun := s.run.begin p r .resume .recordWaiting
      let record : Record := .resume { port := p, lastGenerated := s.base.last }
      { s with run := { begun with out := begun.out ++ [record] } }.grant.finishRequest p)

/-- RUN_END (R148, R155): the closing indicator is set and the Run End handed to the distance base. -/
def execRunEnd (p : Port) (s : State) : Host.Outcome State Fault Refusal :=
  .next (s.serve p 10 0 fun r =>
    match s.runRefusal p [.running, .paused] with
    | some c => s.refuse p r c
    | none =>
      let begun := s.run.begin p r .finish .baseEnding
      { s with run := { begun with closing := true } }.finishRequest p)

/-! ## Run Start at the blocks (R150) -/

/-- The START operation handed to the geometry, exceedance and marking units, with those that have
taken it. When all three have, the Run Start goes to the distance base (steps 3 and 4 of R150). -/
def startingStage (geometry exceedance marking : Bool) : Stage :=
  if geometry && exceedance && marking then .baseStarting else .starting geometry exceedance marking

/-- The geometry unit at Run Start (R93). -/
def GeometryUnit.runStart (g : GeometryUnit) : GeometryUnit := { g.openSegment with lastWritten := none }

/-- GEOMETRY_RUN_START (R93, R150). -/
def execGeometryRunStart (s : State) : Host.Outcome State Fault Refusal :=
  match s.run.stage? with
  | some (.starting false e m) =>
    .next { s with geo := s.geo.runStart, run := s.run.atStage (startingStage true e m) }
  | _ => .next s

/-- The exceedance unit at Run Start with the starting class (R105, R106, R132). -/
def ExceedanceUnit.runStart (u : ExceedanceUnit) (cls : Nat) : ExceedanceUnit :=
  { u with trackers := clearTrackers, number := 0, evaluated := 0, counts := zeroCounts, cls := cls
           classQueue := [] }

/-- The starting class of a START operation. -/
def Operation.startClass (o : Operation) : Nat :=
  match o.what with
  | .start _ _ cls => cls
  | .pause _ | .resume | .finish => 0

/-- EXCEEDANCE_RUN_START (R105, R106, R132, R150). -/
def execExceedanceRunStart (s : State) : Host.Outcome State Fault Refusal :=
  match s.run.op with
  | none => .next s
  | some o =>
    match o.stage with
    | .starting g false m =>
      .next { s with exc := s.exc.runStart o.startClass, run := s.run.atStage (startingStage g true m) }
    | _ => .next s

/-- The marking unit at Run Start (R145): R_m and the counts, with the queue empty, as R145 and the law of
R146 have it. R145 calls it empty already; a Manual Mark queued between step 1 of R150 and this taking
leaves it here, uncounted (DESIGN CHOICE, log 33). -/
def MarkingUnit.runStart (u : MarkingUnit) : MarkingUnit :=
  { u with queue := [], rm := 0, counts := zeroMarks }

/-- MARKING_RUN_START (R145, R150). -/
def execMarkingRunStart (s : State) : Host.Outcome State Fault Refusal :=
  match s.run.stage? with
  | some (.starting g e false) =>
    .next { s with marking := s.marking.runStart, run := s.run.atStage (startingStage g e true) }
  | _ => .next s

/-- The distance base at Run Start with P_start and the orientation (R22, R30, R31, R36): N_0 is the net
travel of the latest strobe it has taken (log 7). -/
def DistanceBase.runStart (b : DistanceBase) (position : Nat) (o : Orientation) : DistanceBase :=
  { b with n0 := b.net, high := 0, last := 0, queue := [], offset := position, orientation := o
           correction := 0, fixesApplied := 0, fixesRefused := 0, running := true }

/-- DISTANCE_BASE_RUN_START (R22, R30, R150): step 4 of R150. -/
def execDistanceBaseRunStart (s : State) : Host.Outcome State Fault Refusal :=
  match s.run.op with
  | none => .next s
  | some o =>
    match o.stage, o.what with
    | .baseStarting, .start position orientation _ =>
      .next { s with base := s.base.runStart position orientation, run := s.run.atStage .completing }
    | _, _ => .next s

/-! ## Pausing and resuming (R90, R92, R130, R152, R154) -/

/-- GEOMETRY_RUN_PAUSE (R90, R152): the geometry unit takes the Run Pause and flushes its segment. -/
def execGeometryRunPause (s : State) : Host.Outcome State Fault Refusal :=
  match s.run.stage? with
  | some .geometryPausing =>
    .next { s with
      geo := s.geo.pause s.store.committed.sampling s.classFor
      run := s.run.atStage .flushing }.grant
  | _ => .next s

/-- The cause of the truncation that an operation asks for (R130, R131). -/
def RunOperation.cause : RunOperation → TruncationCause
  | .finish => .runEnd
  | .start _ _ _ | .pause _ | .resume => .pause

/-- Whether the truncation request of an operation may join the evaluation list: for an END behind the
last point of the run, once every POINT record handed over has been appended and handed on (R131, R155;
log 24). Of a PAUSE the paused records come before or after it (R130). -/
def State.requestDue (s : State) (what : RunOperation) : Bool :=
  match what with
  | .finish => s.geo.out.isEmpty
  | .start _ _ _ | .pause _ | .resume => true

/-- FLUSH_FINISHED (R130, R131, R152, R155): the geometry unit's last flushed record has been appended
and handed on; run control appends the truncation request to the evaluation list. -/
def execFlushFinished (s : State) : Host.Outcome State Fault Refusal :=
  match s.run.op with
  | none => .next s
  | some o =>
    match o.stage, s.geo.flushLeft with
    | .flushing, some 0 =>
      if s.requestDue o.what then
        .next { s with
          geo := { s.geo with flushLeft := none }
          exc := { s.exc with evalList := s.exc.evalList ++ [.truncation o.what.cause] }
          run := s.run.atStage .truncating }
      else .next s
    | _, _ => .next s

/-- GEOMETRY_RUN_RESUME (R92, R154): the geometry unit takes the Run Resume. -/
def execGeometryRunResume (s : State) : Host.Outcome State Fault Refusal :=
  match s.run.stage? with
  | some .geometryResuming =>
    .next { s with geo := s.geo.openSegment, run := s.run.atStage .completing }
  | _ => .next s

/-! ## Ending (R155, R157) -/

/-- DISTANCE_BASE_RUN_END (R71, R94, R155): point generation stops, the point queue is drained, and the
geometry unit's report becomes due when the drained samples have been taken. -/
def execDistanceBaseRunEnd (s : State) : Host.Outcome State Fault Refusal :=
  match s.run.stage? with
  | some .baseEnding =>
    let s1 := { s with base := { s.base with running := false } }.drain
    .next { s1 with
      geo := { s1.geo with endFlush := some !s.base.queue.isEmpty }.endRun
        s1.store.committed.sampling s1.classFor
      run := s1.run.atStage .flushing }.grant
  | _ => .next s

/-- The exceedance counts as a record carries them: limited to 65535 (R157). -/
def ExceedanceCounts.limited (n : ExceedanceCounts) : ExceedanceCounts :=
  { level1 := min 65535 n.level1, level2 := min 65535 n.level2, level3 := min 65535 n.level3
    suppressed := min 65535 n.suppressed, urgent := min 65535 n.urgent }

/-- The mark counts as a record or a response carries them: limited to 65535 (R146, R157). -/
def MarkCounts.limited (n : MarkCounts) : MarkCounts :=
  { queued := min 65535 n.queued, fired := min 65535 n.fired, late := min 65535 n.late
    merged := min 65535 n.merged, dropped := min 65535 n.dropped, discarded := min 65535 n.discarded }

/-- What the distance base hands over at the end of a run (R36, R155). -/
def DistanceBase.handOver (b : DistanceBase) : BaseCounts :=
  { points := b.last, applied := min 65535 b.fixesApplied, refused := min 65535 b.fixesRefused }

/-- The RUN_END record (R157). -/
def runEndRecord (o : Operation) (e : ExceedanceCounts) (m : MarkCounts) (b : BaseCounts) : Record :=
  .runEnd { port := o.port, endedFrom := o.previous, exceedances := e.limited, marks := m.limited, base := b }

/-- The PAUSE record (R153). -/
def pauseRecord (o : Operation) (lastGenerated : Nat) (lastWritten : Option Nat) (closed : Nat) : Record :=
  .pause { port := o.port, lastGenerated := lastGenerated, lastWritten := lastWritten, closed := closed }

/-- Step 3 of R152 on the report of the truncation. -/
def State.pauseReported (s : State) (o : Operation) (lastGenerated closed : Nat) : State :=
  let run := s.run.atStage .recordWaiting
  { s with
    exc := { s.exc with truncation := none }
    run := { run with out := run.out ++ [pauseRecord o lastGenerated s.geo.segmentLast closed] } }

/-- Steps 4 to 6 of R155 on the report of the truncation: the marking unit and the distance base end the
run, and the RUN_END record is handed on. -/
def State.endReported (s : State) (o : Operation) : State :=
  let marking := s.marking.discardAll
  let run := s.run.atStage .recordWaiting
  { s with
    exc := { s.exc with truncation := none }
    marking := marking
    base := { s.base with correction := 0 }
    run := { run with
      summary := { exceedances := some s.exc.counts, marks := some marking.counts
                   base := some s.base.handOver }
      out := run.out ++ [runEndRecord o s.exc.counts marking.counts s.base.handOver] } }

/-- Whether every record of the run but its RUN_END is in the ring, with no point left to evaluate: at
the end of a run E is its last point, and the RUN_END record is its last record (R131, R155, R164; log 8). -/
def State.runRecorded (s : State) : Bool :=
  s.geo.out.isEmpty && s.exc.evalList.isEmpty && s.exc.out.isEmpty && s.marking.out.isEmpty
    && s.base.out.isEmpty

/-- TRUNCATION_FINISHED (R129, R152, R155): the exceedance unit reports its truncation finished once its
records have been appended. For an END the step waits until the run is recorded (R155; log 8). -/
def execTruncationFinished (s : State) : Host.Outcome State Fault Refusal :=
  match s.run.op, s.exc.truncation with
  | some o, some t =>
    match o.stage, t.left with
    | .truncating, 0 =>
      match o.what with
      | .pause j => .next (s.pauseReported o j t.closed).grant
      | .finish => if s.runRecorded then .next (s.endReported o).grant else .next s
      | .start _ _ _ | .resume => .next s
    | _, _ => .next s
  | _, _ => .next s

/-! ## Completion (R148, R150, R152, R154, R155, R158) -/

/-- The run state after the completion of an operation (R158). -/
def RunOperation.result : RunOperation → RunState
  | .start _ _ _ | .resume => .running
  | .pause _ => .paused
  | .finish => .idle

/-- The code of the request that began an operation (13.3). -/
def RunOperation.code : RunOperation → Byte
  | .start _ _ _ => 7
  | .pause _ => 8
  | .resume => 9
  | .finish => 10

/-- The fields of the OK response of an operation (R150, R152, R154, R155, 13.7). -/
def State.completionFields (s : State) : RunOperation → List Field
  | .start _ _ _ => [natField 2 s.run.number]
  | .pause _ => [noneField 4 s.geo.segmentLast]
  | .resume => []
  | .finish => [natField 2 s.run.number, natField 4 s.base.last]

/-- The state changes of a completion before its response: for an END the run state becomes IDLE, the
closing indicator is cleared, and a staged LIMITS image is installed (step 7 of R155). -/
def State.settleRun (s : State) (what : RunOperation) : State :=
  match what with
  | .finish =>
    { s with
      store := s.store.takeUpLimits
      run := { s.run with state := .idle, closing := false, summary := emptySummary } }
  | .start _ _ _ | .pause _ | .resume => s

/-- The completion of an operation: the OK response is placed, the RUN_STATE notice is raised, and no
operation is in progress (R148, R158). -/
def State.completeOperation (s : State) (o : Operation) : State :=
  let s1 := s.settleRun o.what
  let s2 := s1.modPort o.port (fun q => q.respond o.what.code o.tag .ok (s.completionFields o.what))
  let s3 := s2.offer (.runState o.previous o.what.result s.run.number o.port)
  { s3 with run := { s3.run with op := none } }

/-- RUN_OPERATION_COMPLETE (R148). -/
def execRunOperationComplete (s : State) : Host.Outcome State Fault Refusal :=
  match s.run.op with
  | none => .next s
  | some o => if o.stage = .completing then .next (s.completeOperation o) else .next s

end Sys2Proof.Machine
end

