-- ==== Sys2Proof/Machine/Status.lean ====
section
/-! DEFINITION. Read Status (R197): the values each block gives for it, in the order of 13.7. -/

namespace Sys2Proof.Machine

/-- One tachometer's values (R20). -/
def Tach.statusFields (t : Tach) : List Field :=
  [natField 1 t.health.code, ⟨8, t.pulses⟩, natField 8 t.silent, natField 2 t.recovery,
    natField 2 t.glitches]

/-- The tachometer unit's values (R20). -/
def TachUnit.statusFields (u : TachUnit) : List Field :=
  u.units.a.statusFields ++ u.units.b.statusFields
    ++ [natField 2 u.disagreements, natField 2 u.conflicts, ⟨8, u.net⟩, natField 2 u.speed]

/-- The distance base's values (R40). -/
def DistanceBase.statusFields (b : DistanceBase) : List Field :=
  [⟨8, b.net - b.n0⟩, ⟨8, b.high⟩, natField 4 b.last, natField 1 b.queue.length, ⟨8, b.offset⟩,
    natField 1 b.orientation.code, ⟨8, b.correction⟩, natField 2 b.fixesApplied,
    natField 2 b.fixesRefused]

/-- A lane's state and live fail flag (R58). -/
def LaneReceiver.statusFields (r : LaneReceiver) : List Field := [natField 1 r.state.code, flagField r.live]

/-- The values of the strobe generator and the lane receivers (R58). The rate is that of the committed
SAMPLING image, also while the period of an older rate still runs (R43): which of the two R58 means by the
rate in force is open there (DESIGN CHOICE, log 35). -/
def State.laneStatus (s : State) (p : Port) : List Field :=
  let ls := s.lanes.lane
  [natField 4 s.strobe.number.toNat, natField 2 s.store.committed.sampling.rate]
    ++ ls.sl0.statusFields ++ ls.sl1.statusFields ++ ls.sl2.statusFields ++ ls.sl3.statusFields
    ++ [natField 1 (bitsNat (ls.map (fun r => r.sticky.get p)).bits)]

/-- The strobe number of the most recently released set and the number of sets not released (R73). -/
def State.setStatus (s : State) : List Field :=
  [natField 4 ((s.resampler.held.map (fun x => x.strobe.toNat)).getD 0), natField 1 s.lanes.sets.length]

/-- The geometry unit's values (R96). -/
def State.geometryStatus (s : State) : List Field :=
  [natField 1 s.geo.pendingCount, noneField 4 s.geo.segStart, flagField s.geo.segOpen,
    noneField 4 s.geo.lastWritten, natField 1 (emissionDelay s.store.committed.sampling)]

/-- The values of limits and classes (R111). -/
def State.classStatus (s : State) : List Field :=
  [natField 1 s.exc.cls, natField 1 s.exc.classQueue.length,
    natField 4 ((s.exc.classQueue.head?.map ClassEntry.effective).getD 0), flagField s.store.stagedLim,
    natField 4 s.exc.evaluated]

/-- An OPEN tracker's values, by its number; none for a CLEAR one (R135). -/
def trackerStatus (i : Nat) : Tracker → List Field
  | none => []
  | some g =>
    [natField 1 (trackerChannel i), natField 1 (trackerSense i).code, natField 1 g.level,
      natField 4 g.startPoint, natField 4 g.endPoint, flagField g.urgent]

/-- The values of the trackers from number `i` on, in tracker order (R135). -/
def trackersStatus : Nat → List Tracker → List Field
  | _, [] => []
  | i, t :: ts => trackerStatus i t ++ trackersStatus (i + 1) ts

/-- The exceedance unit's values (R135). -/
def ExceedanceUnit.statusFields (u : ExceedanceUnit) : List Field :=
  [natField 4 u.number, natField 2 u.counts.level1, natField 2 u.counts.level2,
    natField 2 u.counts.level3, natField 2 u.counts.suppressed, natField 2 u.counts.urgent,
    natField 2 u.evalList.length, natField 1 (openCount u.trackers)] ++ trackersStatus 0 u.trackers

/-- The marking unit's values (R146). -/
def State.markingStatus (s : State) : List Field :=
  let u := s.marking
  let n := u.counts.limited
  [flagField s.store.committed.marking.enable, natField 1 u.queue.length,
    ⟨8, (u.queue.head?.map MarkEntry.target).getD 0⟩,
    natField 4 ((u.queue.head?.map MarkEntry.point).getD 0), ⟨8, u.rm⟩, flagField u.line.isSome,
    natField 2 n.queued, natField 2 n.fired, natField 2 n.late, natField 2 n.merged,
    natField 2 n.dropped, natField 2 n.discarded]

/-- The code of the operation in progress (13.7). -/
def RunOperation.statusCode : RunOperation → Nat
  | .start _ _ _ => 1
  | .pause _ => 2
  | .resume => 3
  | .finish => 4

/-- Run control's values (R159). -/
def RunControl.statusFields (c : RunControl) : List Field :=
  [natField 1 c.state.code, natField 2 c.number,
    natField 1 ((c.op.map (fun o => o.what.statusCode)).getD 0),
    natField 1 ((c.op.map (fun o => portCode o.port)).getD 0), flagField c.closing]

/-- The ring's values with those of the port (R172). -/
def ringStatus (r : Ring) (q : PortState) : List Field :=
  [natField 4 r.head.toNat, natField 4 r.oldest.toNat, natField 2 r.present, natField 4 q.cursor.toNat,
    natField 1 q.txQueue.length, natField 2 q.filter.toNat, natField 1 q.decimation,
    natField 1 q.overrun.code]

/-- The settings store's values with those of the port (R184). -/
def storeStatus (st : Store) (q : PortState) (own : PortAccess) : List Field :=
  st.generations.list.map (fun g => natField 4 g.toNat)
    ++ [natField 1 (bitsNat [st.stagedCal, st.stagedLim]),
      natField 1 ((q.reservation.map (fun r => r.sec.code)).getD 0),
      natField 4 ((q.reservation.map (fun r => r.generation.toNat)).getD 0),
      natField 1 ((q.await.map (fun a => a.sec.code)).getD 0),
      natField 4 ((q.await.map (fun a => a.generation.toNat)).getD 0)]
    ++ own.values.map flagField

/-- The link states of the three ports and the port's own values (R197). -/
def linkStatus (ports : PerPort PortState) (q : PortState) : List Field :=
  [natField 1 ports.p0.link.code, natField 1 ports.p1.link.code, natField 1 ports.p2.link.code,
    natField 2 q.framing, natField 2 q.crc, natField 2 q.discarded, natField 1 q.requests.length,
    natField 1 q.stream.code, flagField q.pendingPause.isSome, natField 1 q.mask.byte]

/-- The OK body of Read Status (R197, 13.7). -/
def State.statusFields (s : State) (p : Port) : List Field :=
  let q := s.ports.get p
  [natField 1 (bitsNat [s.resampler.held.isSome, q.reservation.isSome, q.await.isSome])]
    ++ s.tach.statusFields ++ s.base.statusFields ++ s.laneStatus p ++ s.setStatus
    ++ s.geometryStatus ++ s.classStatus ++ s.exc.statusFields ++ s.markingStatus
    ++ s.run.statusFields ++ ringStatus s.ring q ++ storeStatus s.store q (s.access p)
    ++ linkStatus s.ports q

/-- READ_STATUS (R197). -/
def execReadStatus (p : Port) (s : State) : Host.Outcome State Fault Refusal :=
  .next (s.serve p 2 0 fun r => s.answerOk p r (s.statusFields p))

end Sys2Proof.Machine
end

