-- ==== Sys2Proof/Machine/Dispatch.lean ====
section
/-! DEFINITION. The meaning of every command: one arm for each row of spec/opcode_table.json. -/

namespace Sys2Proof.Machine

def exec (i : Instr) (s : State) : Host.Outcome State Fault Refusal :=
  match i with
  | .resetLine => Sys2Proof.Machine.execResetLine s
  | .resetPart p => Sys2Proof.Machine.execResetPart p s
  | .pulseCandidate x phase2 => Sys2Proof.Machine.execPulseCandidate x phase2 s
  | .pulseAccept x => Sys2Proof.Machine.execPulseAccept x s
  | .glitch x => Sys2Proof.Machine.execGlitch x s
  | .sampleStrobe => Sys2Proof.Machine.execSampleStrobe s
  | .distanceBaseStrobe => Sys2Proof.Machine.execDistanceBaseStrobe s
  | .distanceStrobeEnd line => Sys2Proof.Machine.execDistanceStrobeEnd line s
  | .markerPulseEnd => Sys2Proof.Machine.execMarkerPulseEnd s
  | .laneFrame lane bytes => Sys2Proof.Machine.execLaneFrame lane bytes s
  | .spatialSampleTake => Sys2Proof.Machine.execSpatialSampleTake s
  | .ringAppend => Sys2Proof.Machine.execRingAppend s
  | .pointEvaluation => Sys2Proof.Machine.execPointEvaluation s
  | .truncation => Sys2Proof.Machine.execTruncation s
  | .linkFrame p bytes => Sys2Proof.Machine.execLinkFrame p bytes s
  | .lossOfSignal p => Sys2Proof.Machine.execLossOfSignal p s
  | .transmitFrameEnd p => Sys2Proof.Machine.execTransmitFrameEnd p s
  | .unknownRequest p => Sys2Proof.Machine.execUnknownRequest p s
  | .identify p => Sys2Proof.Machine.execIdentify p s
  | .readStatus p => Sys2Proof.Machine.execReadStatus p s
  | .setPortOptions p => Sys2Proof.Machine.execSetPortOptions p s
  | .readSettings p => Sys2Proof.Machine.execReadSettings p s
  | .commitSettings p => Sys2Proof.Machine.execCommitSettings p s
  | .awaitChange p => Sys2Proof.Machine.execAwaitChange p s
  | .runStart p => Sys2Proof.Machine.execRunStart p s
  | .geometryRunStart => Sys2Proof.Machine.execGeometryRunStart s
  | .exceedanceRunStart => Sys2Proof.Machine.execExceedanceRunStart s
  | .markingRunStart => Sys2Proof.Machine.execMarkingRunStart s
  | .distanceBaseRunStart => Sys2Proof.Machine.execDistanceBaseRunStart s
  | .runPause p => Sys2Proof.Machine.execRunPause p s
  | .geometryRunPause => Sys2Proof.Machine.execGeometryRunPause s
  | .flushFinished => Sys2Proof.Machine.execFlushFinished s
  | .truncationFinished => Sys2Proof.Machine.execTruncationFinished s
  | .runResume p => Sys2Proof.Machine.execRunResume p s
  | .geometryRunResume => Sys2Proof.Machine.execGeometryRunResume s
  | .runEnd p => Sys2Proof.Machine.execRunEnd p s
  | .distanceBaseRunEnd => Sys2Proof.Machine.execDistanceBaseRunEnd s
  | .runOperationComplete => Sys2Proof.Machine.execRunOperationComplete s
  | .positionFix p => Sys2Proof.Machine.execPositionFix p s
  | .classChange p => Sys2Proof.Machine.execClassChange p s
  | .manualMark p => Sys2Proof.Machine.execManualMark p s
  | .streamStart p => Sys2Proof.Machine.execStreamStart p s
  | .streamPause p => Sys2Proof.Machine.execStreamPause p s
  | .streamResume p => Sys2Proof.Machine.execStreamResume p s
  | .streamStop p => Sys2Proof.Machine.execStreamStop p s
  | .readRecords p => Sys2Proof.Machine.execReadRecords p s
  | .readLaneHealth p => Sys2Proof.Machine.execReadLaneHealth p s
  | .clearLaneFlags p => Sys2Proof.Machine.execClearLaneFlags p s
  | .readLaneSample p => Sys2Proof.Machine.execReadLaneSample p s

end Sys2Proof.Machine
end

