-- ==== Sys2Proof/Safety.lean ====
section
/-! DEFINITION. What counts as a safe state, in the terms the claims use: the laws the spec gives the
part, block by block; and the shapes the claims about requests share. -/

namespace Sys2Proof.Machine

/-! ## The laws of the device -/

/-- A step that answers a next state. -/
def completes (o : Host.Outcome State Fault Refusal) : Prop := ∃ t, o = .next t

/-- One tachometer at rest between steps: without a pulse since the last strobe its count is the
latched one, and with one its silent distance is 0 (R2, R4, R10). -/
def Tach.consistent (t : Tach) : Prop :=
  (t.seen = false → t.pulses = t.latched) ∧ (t.seen = true → t.silent = 0)

/-- The law of R11 with what carries it: at most one silent distance is not 0, and at most one
tachometer is outside HEALTHY. -/
def State.TachLaw (s : State) : Prop :=
  s.tach.units.a.consistent ∧ s.tach.units.b.consistent
    ∧ (s.tach.units.a.silent = 0 ∨ s.tach.units.b.silent = 0)
    ∧ (s.tach.units.a.health = .healthy ∨ s.tach.units.b.health = .healthy)
    ∧ 0 < s.store.committed.odometry.failDistance

/-- The speed window holds 1 to 65 net travels (R16, R17). -/
def State.WindowLaw (s : State) : Prop :=
  1 ≤ s.tach.window.length ∧ s.tach.window.length ≤ Config.windowCapacity

/-- The law of R138: at most 16 entries, in strictly ascending target order. -/
def markQueueOk (q : List MarkEntry) : Prop :=
  q.length ≤ Config.markCapacity ∧ q.Pairwise (fun x y => x.target < y.target)

/-- The law of R138 for a state. -/
def State.MarkLaw (s : State) : Prop := markQueueOk s.marking.queue

/-- The law of R146: marks queued are marks fired, discarded or present. -/
def MarkingUnit.balanced (u : MarkingUnit) : Prop :=
  u.counts.queued = u.counts.fired + u.counts.discarded + u.queue.length

/-- The class queue holds at most 8 entries, in strictly ascending order of effective point (R106). -/
def State.ClassLaw (s : State) : Prop :=
  s.exc.classQueue.length ≤ Config.classCapacity
    ∧ s.exc.classQueue.Pairwise (fun x y => x.effective < y.effective)

/-- An exceedance in progress: its level lies in 1..3 (R117). -/
def trackerOk : Tracker → Prop
  | none => True
  | some g => 1 ≤ g.level ∧ g.level ≤ 3

/-- The sixteen trackers (R113, R117). -/
def State.TrackerLaw (s : State) : Prop :=
  s.exc.trackers.length = 16 ∧ ∀ t ∈ s.exc.trackers, trackerOk t

/-- The tracker that a turn comes to next. -/
def Turn.next : Turn → Nat
  | .point _ n | .truncation _ _ n => n

/-- At most one record of the exceedance unit waits, and an evaluation or a truncation is in progress only
while one does, with one of the sixteen trackers still to act (R114, R115, R127). -/
def State.TurnLaw (s : State) : Prop :=
  s.exc.trackers.length = 16 ∧ s.exc.out.length ≤ 1
    ∧ ∀ x, s.exc.turn = some x → s.exc.out ≠ [] ∧ x.next < 16

/-- `t` has the trackers of `s` act from number `next` on, one after another, each on what the one before it
left and with no record waiting, up to a number `n`: either every tracker has then acted and no turn is in
progress, or a record waits and the turn in progress comes to `n` next (R115, R127, R129). -/
def State.actsTo (s t : State) (act : Nat → Tracker → Tally → Tracker × Tally) (next : Nat)
    (turn : Nat → Turn) : Prop :=
  ∃ (n : Nat) (y : Nat → Tally), next ≤ n ∧ n ≤ s.exc.trackers.length
    ∧ y next
      = { number := s.exc.number, counts := s.exc.counts, out := s.exc.out, marking := s.marking }
    ∧ y n = { number := t.exc.number, counts := t.exc.counts, out := t.exc.out, marking := t.marking }
    ∧ t.exc.trackers.length = s.exc.trackers.length
    ∧ (∀ i before after, s.exc.trackers[i]? = some before → t.exc.trackers[i]? = some after →
        (next ≤ i ∧ i < n → (y i).out = [] ∧ act i before (y i) = (after, y (i + 1)))
        ∧ (i < next ∨ n ≤ i → after = before))
    ∧ (n < s.exc.trackers.length → t.exc.out ≠ [] ∧ t.exc.turn = some (turn n))
    ∧ (n = s.exc.trackers.length → t.exc.turn = none)

/-- `t` has a truncation that closes `closed` trackers go on in `s` from number `next` (R129): each OPEN
tracker is closed in its turn; once all have been handled the report is due, and for the cause END a staged
LIMITS image is installed (R131). -/
def State.truncatesTo (s t : State) (cause : TruncationCause) (closed next : Nat) : Prop :=
  let why : Closing := match cause with | .pause => .pause | .runEnd => .runEnd
  let openTrackers (x : State) := (x.exc.trackers.filter Option.isSome).length
  s.actsTo t (fun i k y => (none, match k with
      | none => y
      | some g => closeExceedance s.store.installedLim s.store.committed.sampling (i / 2)
        (if i % 2 = 0 then .upper else .lower) why g y)) next (.truncation cause closed)
    ∧ t.exc.evalList = s.exc.evalList ∧ t.exc.cls = s.exc.cls ∧ t.exc.classQueue = s.exc.classQueue
    ∧ t.exc.evaluated = s.exc.evaluated ∧ t.marking = s.marking
    ∧ t.exc.number = s.exc.number + t.exc.out.length ∧ t.exc.counts.urgent = s.exc.counts.urgent
    ∧ (s.exc.counts.suppressed + openTrackers s ≤ 65535 →
        t.exc.counts.suppressed + t.exc.out.length + openTrackers t
          = s.exc.counts.suppressed + openTrackers s)
    ∧ (t.exc.turn ≠ none → t.exc.truncation = s.exc.truncation ∧ t.store = s.store)
    ∧ (t.exc.turn = none → t.exc.truncation = some ⟨cause, closed, t.exc.out.length⟩
      ∧ (∀ i k, next ≤ i → t.exc.trackers[i]? = some k → k = none)
      ∧ t.store = (match cause with
        | .pause => s.store
        | .runEnd => { s.store with
            stagedLim := false
            installedLim := if s.store.stagedLim then s.store.committed.limits
              else s.store.installedLim }))

/-- The law of R161: at most 8192 records, their sequence numbers running from the oldest number up to
the head. -/
def ringOk (r : Ring) : Prop :=
  r.contents.length ≤ Config.ringCapacity
    ∧ r.head = r.oldest + BitVec.ofNat 32 r.contents.length
    ∧ ∀ i x, r.contents[i]? = some x → x.sequence = r.oldest + BitVec.ofNat 32 i

/-- The law of R161 for a state. -/
def State.RingLaw (s : State) : Prop := ringOk s.ring

/-- The order at the append port (R163): the record granted waits, and while none is granted none waits. -/
def State.GrantLaw (s : State) : Prop :=
  (∀ w, s.ring.granted = some w → s.waiting w ≠ none)
    ∧ (s.ring.granted = none → ∀ w, s.waiting w = none)

/-- A channel value that is absent, or lies within −32767..+32767 (R85). -/
def Channel.ok (c : Channel) : Prop := ∀ v, c.value = some v → -32767 ≤ v ∧ v ≤ 32767

/-- The law of R85 for a record: every channel of a POINT record. -/
def Record.channelsOk : Record → Prop
  | .point r => ∀ c ∈ r.channels.list, c.ok
  | _ => True

/-- The law of R85 wherever a POINT record stands: at its writer, in the evaluation list and in the ring;
and for the two channels kept with a sample in the window. -/
def State.ChannelLaw (s : State) : Prop :=
  (∀ y ∈ s.geo.window, y.gauge.ok ∧ y.xlevel.ok)
    ∧ (∀ r ∈ s.geo.out, (Record.point r).channelsOk)
    ∧ (∀ r, .point r ∈ s.exc.evalList → (Record.point r).channelsOk)
    ∧ (∀ b ∈ s.exc.out ++ s.marking.out ++ s.run.out, b.channelsOk)
    ∧ ∀ x ∈ s.ring.contents, x.body.channelsOk

/-- The law of R178: every reservation held names its section's current generation. -/
def State.ReservationLaw (s : State) : Prop :=
  ∀ p r, (s.ports.get p).reservation = some r → r.generation = s.store.generations.get r.sec

/-- The law of R182: at least one port holds commit permission for the ACCESS section. -/
def State.AccessLaw (s : State) : Prop := ∃ p, (s.access p).commit.access = true

/-- The bounds of a port's queues: at most 4 requests (R189), at most three delivery items, and at most
the one completing its frame while the stream is NONE (R165, 12.4). -/
def PortState.queuesOk (q : PortState) : Prop :=
  q.requests.length ≤ Config.requestCapacity ∧ q.txQueue.length ≤ Config.transmitCapacity
    ∧ (q.stream = .none → q.txQueue.length ≤ 1)

/-- The bounds of R165 and R189 at every port. -/
def State.QueueLaw (s : State) : Prop := ∀ p, (s.ports.get p).queuesOk

/-- A port whose link is DOWN holds nothing that R187 removes. -/
def PortState.quietWhenDown (q : PortState) : Prop :=
  q.link = .down → q.requests = [] ∧ q.replies = [] ∧ q.tx = none ∧ q.stream = .none
    ∧ q.txQueue = [] ∧ q.readJob = none ∧ q.pendingPause = none ∧ q.await = none
    ∧ q.reservation = none

/-- What a DOWN link leaves (R187), at every port. -/
def State.DownLaw (s : State) : Prop := ∀ p, (s.ports.get p).quietWhenDown

/-! ## Valid images (R98, R100, R176) -/

/-- Whether a value is admitted in the field of an index of an image other than LIMITS: its range or
its values in the settings table of the owning chapter (01, 02, 03, 04, 05, 08). -/
def fieldOk : Section → Nat → Int → Prop
  | .calibration, i, x =>
    if i < 4 then x = 0 ∨ x = 1
    else if i ∈ [4, 6, 8, 10, 14, 16] then x = 1 ∨ x = -1
    else if i ∈ [5, 7, 9, 11, 18] then -5000 ≤ x ∧ x ≤ 5000
    else if i ∈ [12, 13, 15, 17] then -100000 ≤ x ∧ x ≤ 100000
    else if i = 19 then 140000 ≤ x ∧ x ≤ 170000
    else 1 ≤ x ∧ x ≤ 8
  | .sampling, i, x =>
    if i = 0 then x = 1000 ∨ x = 2000 ∨ x = 4000
    else if i = 1 then x = 100 ∨ x = 200 ∨ x = 250 ∨ x = 500
    else if i ∈ [2, 3] then 1 ≤ x ∧ x ≤ 4000
    else if i ∈ [4, 5] then 1 ≤ x ∧ x ≤ 64
    else if i ∈ [6, 7] then 1 ≤ x ∧ x ≤ 128
    else 5 ≤ x ∧ x ≤ 60
  | .odometry, i, x =>
    if i = 0 then 100 ≤ x ∧ x ≤ 10000
    else if i = 1 then 500000 ≤ x ∧ x ≤ 5000000
    else if i = 2 then 1 ≤ x ∧ x ≤ 255
    else if i = 3 then 1 ≤ x ∧ x ≤ 200
    else if i = 4 then 0 ≤ x ∧ x ≤ 50000
    else if i = 5 then 500 ≤ x ∧ x ≤ 20000
    else if i ∈ [6, 7, 9] then x = 0 ∨ x = 1
    else if i = 8 then 100 ≤ x ∧ x ≤ 1000000
    else 1 ≤ x ∧ x ≤ 1000
  | .marking, i, x =>
    if i = 0 then x = 0 ∨ x = 1
    else if i = 1 then x = 2 ∨ x = 3
    else if i = 2 then 0 ≤ x ∧ x ≤ 50000
    else if i = 3 then 0 ≤ x ∧ x ≤ 10000
    else 5 ≤ x ∧ x ≤ 200
  | .access, _, _ => True
  | .limits, _, _ => True

/-- Whether a field of a LIMITS image is bad (R100), by its index (R99): a threshold against the present
one before it in its class and sense, or, for level 1 of the lower sense, against that of the upper; or a
parameter out of its range (R98). -/
def badLimit (l : LimitsImage) (i : Nat) : Prop :=
  (∃ c q e n t, c < 8 ∧ q < 4 ∧ 1 ≤ n ∧ n ≤ 3
    ∧ i = ((c * 4 + q) * 2 + (match e with | .upper => 0 | .lower => 1)) * 3 + (n - 1)
    ∧ l.threshold c q e n = some t
    ∧ ((∃ m u, 1 ≤ m ∧ m < n ∧ l.threshold c q e m = some u
          ∧ (∀ j, m < j → j < n → l.threshold c q e j = none)
          ∧ (match e with | .upper => t < u | .lower => u < t))
      ∨ (e = .lower ∧ n = 1 ∧ ∃ u, l.threshold c q .upper 1 = some u ∧ u ≤ t)))
  ∨ ∃ c k, c < 8 ∧ k < 4 ∧ i = 192 + c * 4 + k
    ∧ (match k with
      | 0 => 1000 < (l.paramsOf c).hysteresis
      | 1 => (l.paramsOf c).closeCount < 1 ∨ 16 < (l.paramsOf c).closeCount
      | 2 => 64 < (l.paramsOf c).minLength
      | _ => (l.paramsOf c).absentRun < 1 ∨ 255 < (l.paramsOf c).absentRun)

/-! ## The shapes the claims about sets and POINT records share -/

/-- `s` with the set `x` closed under a CALIBRATION image: its values and its lane-absent mask are formed,
and it is recent (R46, R64). -/
def State.withClosed (s : State) (c : CalibrationImage) (x : SampleSet) : State :=
  { s with lanes := { s.lanes with
      sets := s.lanes.sets.map (fun y => if y.strobe = x.strobe then
        { y with
          condition := .closed
          values := processSlots c y.slots
          absent := ⟨y.slots.sl0.isNone, y.slots.sl1.isNone, y.slots.sl2.isNone, y.slots.sl3.isNone⟩ }
        else y)
      recent := s.lanes.recent ++ [⟨x.strobe, s.strobe.number,
        ⟨x.slots.sl0.isSome, x.slots.sl1.isSome, x.slots.sl2.isSome, x.slots.sl3.isSome⟩⟩] } }

/-- The LANE_STATE notices of the changes between two families of lane receivers (R57), SL0's first (the
model's order, log 5). -/
def laneChanges (before after : PerLane LaneReceiver) : List Notice :=
  [Lane.sl0, .sl1, .sl2, .sl3].filterMap (fun l =>
    if (before.get l).state = (after.get l).state then none
    else some (.laneState l (before.get l).state (after.get l).state))

/-- The ports of `s` with notices offered to each of them, one after another (R195). -/
def State.portsOffered (s : State) (notices : List Notice) : PerPort PortState :=
  ⟨notices.foldl PortState.offer s.ports.p0, notices.foldl PortState.offer s.ports.p1,
    notices.foldl PortState.offer s.ports.p2⟩

/-- `u` is `s` with a CALIBRATION image installed (R51, R56, R57): the lanes whose mode it changes, the
LANE_STATE notices of the changes (in the order of log 5), and the lanes that become OFF no longer awaited
by the OPEN sets. -/
def State.installs (s u : State) (image : CalibrationImage) : Prop :=
  let was (l : Lane) : LaneReceiver := s.lanes.lane.get l
  ∃ lane : PerLane LaneReceiver,
    (∀ l, lane.get l =
      if s.store.installedCal.modes.get l = image.modes.get l then was l
      else if image.modes.get l = .forceOff then { was l with state := .off, hits := 0, misses := 0 }
      else if (was l).state = .off then { was l with state := .seeking, hits := 0, misses := 0 }
      else was l)
    ∧ let kept (l : Lane) : Bool := decide ((was l).state = .off ∨ (lane.get l).state ≠ .off)
      u = { s with
        store := { s.store with installedCal := image, stagedCal := false }
        ports := s.portsOffered (laneChanges s.lanes.lane lane)
        lanes := { s.lanes with
          lane := lane
          sets := s.lanes.sets.map (fun x => if x.condition = .opened then
            { x with awaited := ⟨x.awaited.sl0 && kept .sl0, x.awaited.sl1 && kept .sl1,
              x.awaited.sl2 && kept .sl2, x.awaited.sl3 && kept .sl3⟩ } else x) } }

/-- `u` is `s` with the set of strobe `k` formed and CLOSED under a CALIBRATION image, and every set that is
then ready released (steps 2 to 4 of R64, R65). -/
def State.formsSet (image : CalibrationImage) (s : State) (k : Word32) (u : State) : Prop :=
  ∃ x, s.lanes.sets.find? (fun z => z.strobe == k) = some x
    ∧ u = State.releaseReady (s.withClosed image x)

/-- `u` is `s` after the sets of these strobes have been closed, one after another, each where it is still
OPEN. -/
def State.closesEach (closing : State → Word32 → State → Prop) (due : List Word32) (s u : State) : Prop :=
  ∃ y : Nat → State, y 0 = s ∧ y due.length = u ∧ ∀ i k, due[i]? = some k →
    ((∃ x ∈ (y i).lanes.sets, x.strobe = k ∧ x.condition = .opened) → closing (y i) k (y (i + 1)))
    ∧ ((∀ x ∈ (y i).lanes.sets, x.strobe = k → x.condition ≠ .opened) → y (i + 1) = y i)

/-- The strobes of the OPEN sets that hold a frame of every lane they await, in order (R62). -/
def State.completeSets (s : State) : List Word32 :=
  (s.lanes.sets.filter (fun x => decide (x.condition = .opened)
    && [Lane.sl0, .sl1, .sl2, .sl3].all (fun l => !x.awaited.get l || (x.slots.get l).isSome))).map
    SampleSet.strobe

/-- `s` with the set of strobe `k` no longer OPEN, as it is while it closes (R56, R64). -/
def State.notOpen (s : State) (k : Word32) : State :=
  { s with lanes := { s.lanes with
      sets := s.lanes.sets.map (fun x => if x.strobe = k then { x with condition := .closed } else x) } }

/-- `u` is `s` with the set of strobe `k` closed (R64): with no CALIBRATION image staged it is formed and
released as is due; a staged one is taken up first, the closing set being no longer OPEN, and the sets that
the take-up completes are closed after it, in their order (log 22). -/
def State.closesSet (s : State) (k : Word32) (u : State) : Prop :=
  let image := s.store.committed.calibration
  (s.store.stagedCal = false → State.formsSet s.store.installedCal s k u)
  ∧ (s.store.stagedCal = true → ∃ v w,
      State.installs (s.notOpen k) v image
      ∧ State.formsSet image v k w
      ∧ State.closesEach (State.formsSet image) v.completeSets w u)

/-- `x` is the set of strobe `k` that the part holds: not yet released, or else the held set. -/
def State.isSetOf (s : State) (k : Word32) (x : SampleSet) : Prop :=
  s.lanes.sets.find? (fun y => y.strobe == k) = some x
    ∨ ((∀ y ∈ s.lanes.sets, y.strobe ≠ k) ∧ s.resampler.held = some x ∧ x.strobe = k)

/-- `cls` is the class that a record of point `m` carries (R88): that of the last class-queue entry at or
before the point, or the current class where there is none. -/
def State.classIs (s : State) (m cls : Nat) : Prop :=
  (∀ before e after, s.exc.classQueue = before ++ e :: after → e.effective ≤ m →
      (∀ x ∈ after, m < x.effective) → cls = e.cls)
    ∧ ((∀ x ∈ s.exc.classQueue, m < x.effective) → cls = s.exc.cls)

/-- An exact channel value, limited to ±32767 with its saturation bit (R85). -/
def limitedChannel (v : Int) : Channel := ⟨some (max (-32767) (min 32767 v)), decide (32767 < |v|)⟩

/-- `c` is the twist of a point `m` with cross-level `own` over a base of `b` points (R82, R85). -/
def twistIs (history : List HistoryPair) (m b : Nat) (own c : Channel) : Prop :=
  let back := if b ≤ m then history.find? (fun e => e.point == m - b) else none
  (∀ v e w, own.value = some v → back = some e → e.xlevel.value = some w →
      c = { limitedChannel (v - w) with
        saturated := decide (32767 < |v - w|) || own.saturated || e.xlevel.saturated })
    ∧ ((own.value = none ∨ back = none ∨ ∃ e, back = some e ∧ e.xlevel.value = none) → c = ⟨none, false⟩)

/-- `c` is the versine of the chord input `u` at point `m` over a half-chord, rounded to nearest with
halves away from zero (R83 to R85). -/
def versineIs (window : List WindowSample) (u : WindowSample → Option Int) (m half : Nat) (c : Channel) :
    Prop :=
  let input (p : Nat) : Option Int := (window.find? (fun y => y.sample.point == p)).bind u
  (∀ v w z, half ≤ m → input m = some v → input (m - half) = some w → input (m + half) = some z →
      ∃ q : Int, c = limitedChannel q ∧ |2 * q - (2 * v - w - z)| ≤ 1 ∧ |2 * v - w - z| ≤ |2 * q|)
    ∧ ((m < half ∨ input m = none ∨ input (m - half) = none ∨ input (m + half) = none) → c = ⟨none, false⟩)

/-- `r` is the POINT record of the window's sample `y`, written in a segment with a cross-level history
(R82 to R88). -/
structure State.writes (s : State) (window : List WindowSample) (history : List HistoryPair)
    (y : WindowSample) (final : Bool) (r : PointRecord) : Prop where
  point : r.point = y.sample.point ∧ r.position = y.sample.position ∧ r.speed = y.sample.speed
  cls : s.classIs y.sample.point r.cls
  sample : r.aux = y.sample.values.aux ∧ r.absent = y.sample.absent ∧ r.late = y.sample.late
    ∧ r.flags = y.sample.flags ∧ r.corrected = y.sample.corrected ∧ r.limited = y.sample.limited
    ∧ r.lowSpeed = y.lowSpeed
  marks : r.paused = false ∧ r.runFinal = final
  values : r.channels.gauge = y.gauge ∧ r.channels.xlevel = y.xlevel
  twists : twistIs history y.sample.point s.store.committed.sampling.twistS y.xlevel r.channels.twistS
    ∧ twistIs history y.sample.point s.store.committed.sampling.twistL y.xlevel r.channels.twistL
  tops : versineIs window WindowSample.yL y.sample.point s.store.committed.sampling.halfV r.channels.topL
    ∧ versineIs window WindowSample.yR y.sample.point s.store.committed.sampling.halfV r.channels.topR
  aligns :
    versineIs window WindowSample.aL y.sample.point s.store.committed.sampling.halfA r.channels.alignL
    ∧ versineIs window WindowSample.aR y.sample.point s.store.committed.sampling.halfA r.channels.alignR

/-- The history with the pair of a sample whose record has been written: the newest 128 (R76). -/
def pairAdded (history : List HistoryPair) (y : WindowSample) : List HistoryPair :=
  let pairs := history ++ [⟨y.sample.point, y.xlevel⟩]
  if 128 < pairs.length then pairs.tail else pairs

/-- `rs` are the records of a flush of a segment (R90): those of the window's samples without a record, in
order, run-final, each formed on the history that the one before it leaves; `left` is the last history. -/
def State.flushes (s : State) (window : List WindowSample) (history left : List HistoryPair)
    (rs : List PointRecord) : Prop :=
  let pending := window.filter (fun y => !y.written)
  rs.length = pending.length ∧ ∃ h : Nat → List HistoryPair, h 0 = history ∧ h rs.length = left
    ∧ ∀ i y r, pending[i]? = some y → rs[i]? = some r →
      s.writes window (h i) y true r ∧ h (i + 1) = pairAdded (h i) y

/-! ## The shapes the claims about requests share -/

/-- Port `p` can dispatch the request `r`, with `rest` queued behind it: dispatching is not stopped by
an accepted Reset Part, and no Read Records of the port is under execution (R189, R198). -/
def State.canDispatch (s : State) (p : Port) (r : Request) (rest : List Request) : Prop :=
  s.resetPending = none ∧ (s.ports.get p).readJob = none ∧ (s.ports.get p).requests = r :: rest

/-- `s` with the front request of port `p` gone and its response handed to the port's transmitter. -/
def State.replied (s : State) (p : Port) (r : Request) (rest : List Request) (c : Completion)
    (fields : List Field) : State :=
  s.modPort p (fun q => { q with requests := rest }.respond r.code r.tag c fields)

/-- `s` with the front request of port `p` gone and no response yet. -/
def State.parked (s : State) (p : Port) (rest : List Request) : State :=
  s.modPort p (fun q => { q with requests := rest })

/-- `t` differs from `s` at most in what the ports hold: nothing but a reply or a notice was placed. -/
def State.samePartsBut (s t : State) : Prop := t = { s with ports := t.ports }

/-- The requests whose body has one length, each with its command at port `p`, its code and that
length (13.3): every request but Commit Settings. -/
def fixedRequests (p : Port) : List (Instr × Nat × Nat) :=
  [(.identify p, 1, 0), (.readStatus p, 2, 0), (.readSettings p, 3, 1), (.awaitChange p, 5, 5),
    (.setPortOptions p, 6, 2), (.runStart p, 7, 6), (.runPause p, 8, 0), (.runResume p, 9, 0),
    (.runEnd p, 10, 0), (.positionFix p, 11, 9), (.classChange p, 12, 5), (.manualMark p, 13, 4),
    (.streamStart p, 14, 8), (.streamPause p, 15, 0), (.streamResume p, 16, 0),
    (.streamStop p, 17, 0), (.readRecords p, 18, 6), (.readLaneHealth p, 19, 1),
    (.clearLaneFlags p, 20, 1), (.readLaneSample p, 21, 1), (.resetPart p, 22, 0)]

/-- The commands that dispatch a request of port `p`. -/
def dispatches (p : Port) : List Instr :=
  (fixedRequests p).map Prod.fst ++ [.commitSettings p, .unknownRequest p]

/-- The number of an EXCEEDANCE record. -/
def Record.exceedanceNumber? : Record → Option Nat
  | .exceedance r => some r.number
  | _ => none

/-- The values of the tables of R21, R41, R60, R74, R97, R112, R136, R147, R160, R174 and R199, with
the part having issued and taken strobe 0 (R42; log 6): the speed window holds its travel beside the entry
of the reset, its items wait for the distance base, and set 0 is open, or, awaiting no lane, closed and
recent (R46, R61, R62). -/
structure State.AfterReset (t : State) (links : PerPort LinkState) : Prop where
  tachs : ∀ x, t.tach.units.get x =
    { pulses := 0, latched := 0, seen := false, health := .healthy, silent := 0, recovery := 0
      glitches := 0, candidate := none }
  tachCounters : t.tach.disagreements = 0 ∧ t.tach.conflicts = 0 ∧ t.tach.net = 0 ∧ t.tach.speed = 0
    ∧ t.tach.window = [0, 0] ∧ t.tach.rateChanged = false
  strobe : t.strobe.number = 0 ∧ t.strobe.ss = 0 ∧ t.strobe.period = 1000000 / t.store.committed.sampling.rate
    ∧ t.time = 0
  lanes : ∀ l, t.lanes.lane.get l =
    { state := if t.store.installedCal.modes.get l = .auto then .seeking else .off
      hits := 0, misses := 0, live := false, sticky := ⟨false, false, false⟩, errors := 0, late := 0
      missing := 0, accepted := 0, last := none }
  late : t.lanes.latePending = false
  held : t.resampler.held = none
  set : ∃ x, t.lanes.sets = [x] ∧ x.strobe = 0 ∧ (∀ l, x.slots.get l = none)
    ∧ (∀ l, x.awaited.get l = decide (t.store.installedCal.modes.get l = .auto))
    ∧ x.items = some ⟨0, 0, 0, 0, ⟨false, false, false, false⟩⟩ ∧ x.late = false
    ∧ ((∃ l, t.store.installedCal.modes.get l = .auto) → x.condition = .opened ∧ t.lanes.recent = [])
    ∧ ((∀ l, t.store.installedCal.modes.get l ≠ .auto) → x.condition = .closed
      ∧ (∀ l, x.absent.get l = true) ∧ t.lanes.recent = [⟨0, 0, ⟨false, false, false, false⟩⟩])
  baseInbox : t.base.inbox = [⟨0, 0, 0, 0, ⟨false, false, false, false⟩⟩] ∧ t.base.net = 0
  base : t.base.n0 = 0 ∧ t.base.high = 0 ∧ t.base.last = 0 ∧ t.base.queue = [] ∧ t.base.offset = 0
    ∧ t.base.orientation = .up ∧ t.base.correction = 0 ∧ t.base.fixesApplied = 0
    ∧ t.base.fixesRefused = 0 ∧ t.base.ds = { ds0 := .inactive, ds1 := .inactive, due := [] }
    ∧ t.base.running = false ∧ t.base.out = []
  geo : t.geo.window = [] ∧ t.geo.segStart = none ∧ t.geo.segOpen = false ∧ t.geo.history = []
    ∧ t.geo.pendingCount = 0 ∧ t.geo.lastWritten = none ∧ t.geo.out = [] ∧ t.geo.inbox = []
    ∧ t.geo.flushLeft = none ∧ t.geo.endFlush = none
  exc : t.exc.trackers = List.replicate 16 none ∧ t.exc.evalList = [] ∧ t.exc.number = 0
    ∧ t.exc.counts = { level1 := 0, level2 := 0, level3 := 0, suppressed := 0, urgent := 0 }
    ∧ t.exc.cls = 0 ∧ t.exc.classQueue = [] ∧ t.exc.evaluated = 0 ∧ t.exc.out = []
    ∧ t.exc.turn = none ∧ t.exc.truncation = none
  marking : t.marking =
    { queue := [], rm := 0, line := none, out := []
      counts := { queued := 0, fired := 0, late := 0, merged := 0, dropped := 0, discarded := 0 } }
  run : t.run =
    { state := .idle, number := 0, op := none, closing := false, out := []
      summary := { exceedances := none, marks := none, base := none } }
  ring : t.ring = { contents := [], head := 0, oldest := 0, rotation := .runControl, granted := none }
  staged : t.store.stagedCal = false ∧ t.store.stagedLim = false
  resetPending : t.resetPending = none
  ports : ∀ p, t.ports.get p =
    { link := links.get p, framing := 0, crc := 0, requests := [], replies := [], discarded := 0
      stream := .none, streamTag := 0, pendingPause := none
      mask := { runState := false, laneState := false, tachState := false }
      overrun := .inStream, cursor := 0, filter := 0x07FE, decimation := 1, txQueue := []
      readJob := none, tx := none, reservation := none, await := none }

end Sys2Proof.Machine
end

