-- ==== Sys2Proof/Certificates/Slice0/Obligations.lean ====
section
/-! DEFINITION. The statements for the provers, in the order of the chapters. Each says in its
docstring which rule of spec/ it formalises, and where a convention of the model's own enters. -/

open Sys2Proof Sys2Proof.Machine

/-! ## The queue of commands -/

/-- A step takes the command at the front of the queue and runs it with the queue's rest; on an empty
queue the part idles (the model's choice, log 1). -/
def Obligations.StepRunsFrontCommand : Prop :=
  (∀ (c : Instr) (rest : List Instr) (s : State),
    step { s with pending := c :: rest } = exec c { s with pending := rest })
  ∧ ∀ s : State, s.pending = [] → step s = .next s

/-! ## Resets (1.8, 2.8, 3, 4, 5, 6, 7, 8, 9.6, 10.7, 11.7, 12.8) -/

/-- The reset line: every block takes its value after reset, the settings take their defaults, their
generations are 0 and every link is DOWN (R199 and the other reset tables). The model's choices in it:
strobe 0 is taken in the same step (log 6), the byte of a permission held in the default ACCESS image is
1 (log 13), the stream tag and the other fields the spec does not name have the values of log 21, and the
commands waiting are kept (log 1). -/
def Obligations.ResetLineRestoresTheTables : Prop :=
  ∀ s : State, ∃ t, exec .resetLine s = .next t ∧ t.pending = s.pending
    ∧ t.AfterReset ⟨.down, .down, .down⟩
    ∧ t.store.committed = defaultImages ∧ t.store.installedCal = defaultCalibration
    ∧ t.store.installedLim = defaultLimits ∧ (∀ c, t.store.generations.get c = 0)

/-- Reset Part (R198). Without the reset permission it is refused and nothing else happens; with it the OK
response is placed, dispatching stops on every port, and the request stays where it is. It is applied
when its OK frame has been sent whole, or when the requesting link goes DOWN before: every block takes
its value after reset; the committed images and the generations are kept, a staged image is installed,
and the link states are kept (R185). The model's choices in it: strobe 0 is taken in the step of the reset
(log 6), the commands waiting are kept (log 1), and the stream tag and the other fields the spec does not
name have the values of log 21. -/
def Obligations.ResetPartOutcomes : Prop :=
  ((∀ (s : State) (p : Port) (tag : Word16) (rest : List Request),
     s.canDispatch p ⟨22, tag, []⟩ rest →
     ((s.access p).reset = false →
       exec (.resetPart p) s = .next (s.replied p ⟨22, tag, []⟩ rest .notPermitted []))
     ∧ ((s.access p).reset = true → (s.ports.get p).link = .up →
       exec (.resetPart p) s = .next
         { s with resetPending := some p
                  ports := s.ports.set p ((s.ports.get p).respond 22 tag .ok []) }))
   ∧ ∀ (s : State) (p k : Port) (c : Instr), s.resetPending = some k → c ∈ dispatches p →
       exec c s = .next s)
  ∧ (∀ (s : State) (p : Port), s.resetPending = some p → 0 < s.store.committed.odometry.failDistance →
       (∀ (tag : Word16) (frame : List Byte),
         (s.ports.get p).tx = some ⟨.reply (.response ⟨22, tag, .ok, []⟩), frame⟩ →
         ∃ t, exec (.transmitFrameEnd p) s = .next t
           ∧ t.AfterReset ⟨s.ports.p0.link, s.ports.p1.link, s.ports.p2.link⟩ ∧ t.pending = s.pending
           ∧ t.store.committed = s.store.committed ∧ t.store.generations = s.store.generations
           ∧ t.store.installedCal
               = (if s.store.stagedCal then s.store.committed.calibration else s.store.installedCal)
           ∧ t.store.installedLim
               = (if s.store.stagedLim then s.store.committed.limits else s.store.installedLim))
       ∧ ((s.ports.get p).link = .up →
         ∃ t links, exec (.lossOfSignal p) s = .next t ∧ t.AfterReset links ∧ links.get p = .down
           ∧ (∀ k, k ≠ p → links.get k = (s.ports.get k).link) ∧ t.pending = s.pending
           ∧ t.store.committed = s.store.committed ∧ t.store.generations = s.store.generations
           ∧ t.store.installedCal
               = (if s.store.stagedCal then s.store.committed.calibration else s.store.installedCal)
           ∧ t.store.installedLim
               = (if s.store.stagedLim then s.store.committed.limits else s.store.installedLim)))

/-! ## Tachometers (1.1 to 1.5) -/

/-- A rising edge begins a candidate with the W_min, REVERSE and phase 2 level of that moment, when none is
in progress; a fall before W_min ends it as a glitch, counted and saturating (R1, R2, R20). An accepted
pulse moves the net pulse count by 1, down for the high phase 2 level and up for the low one, exchanged
under REVERSE; it sets the pulse-seen indicator, returns the silent distance to 0, and makes a FAILED
tachometer RECOVERING with a TACH_STATE notice offered to every port (R2, R10, R12, R14). A command that
names no edge the part can act on changes nothing (the model's choice, log 2). -/
def Obligations.TachometerPulses : Prop :=
  (∀ (s : State) (x : TachId) (level : Bool),
     let u := s.tach.units.get x
     let withUnit (u' : Tach) : State :=
       { s with tach := { s.tach with units := s.tach.units.set x u' } }
     (u.candidate = none →
       exec (.pulseCandidate x level) s = .next
           (withUnit { u with candidate := some ⟨s.store.committed.odometry.wMin,
             s.store.committed.odometry.reverse.get x, level⟩ })
         ∧ exec (.glitch x) s = .next s)
     ∧ (u.candidate ≠ none →
       exec (.pulseCandidate x level) s = .next s
         ∧ exec (.glitch x) s = .next
           (withUnit { u with candidate := none, glitches := satInc 65535 u.glitches })))
  ∧ (∀ (s : State) (x : TachId) (c : Candidate), (s.tach.units.get x).candidate = some c →
       let u := s.tach.units.get x
       let u' : Tach :=
         { u with
           pulses := u.pulses
             + (if c.reverse then (if c.phase2 then 1 else -1) else (if c.phase2 then -1 else 1))
           seen := true, silent := 0, candidate := none
           health := if u.health = .failed then .recovering else u.health
           recovery := if u.health = .failed then 0 else u.recovery }
       ∃ t, exec (.pulseAccept x) s = .next t
         ∧ t = { s with ports := t.ports, tach := { s.tach with units := s.tach.units.set x u' } }
         ∧ ∀ p, t.ports.get p = if u.health = .failed
             then (s.ports.get p).offer (.tachState x .failed .recovering) else s.ports.get p)

/-- The increment of a tachometer, the difference of the floors of its scaled net and latched counts (R3).
The used increment, its flags and the counters of a strobe (R5 to R9): of two HEALTHY tachometers
the increment of larger magnitude, or 0 for increments of opposite signs; of one HEALTHY tachometer its
own; limited to 139 × T_s. The speed, rounded with halves up, and the speed window, which holds at most
65 net travels and restarts after a rate change (R16, R17). What the strobe leaves of each tachometer:
its silent distance, its health and recovery count, and its latched count (R4, R10, R11, R13), with the
TACH_STATE notices of the changes, A's first (R14; the order is the model's choice, log 5). -/
def Obligations.UsedIncrementOfAStrobe : Prop :=
  (∀ (x : Tach) (o : OdometryImage), 0 < o.pulsesPerRev →
    let c : Int := o.circumference
    let n : Int := o.pulsesPerRev
    ∃ distance latched : Int, x.increment o = distance - latched
      ∧ distance * n ≤ x.pulses * c ∧ x.pulses * c < (distance + 1) * n
      ∧ latched * n ≤ x.latched * c ∧ x.latched * c < (latched + 1) * n)
  ∧ (∀ (u : TachUnit) (o : OdometryImage) (period : Nat) (k : Word32),
    let a := u.units.a
    let b := u.units.b
    let da := a.increment o
    let db := b.increment o
    let r := u.takeStrobe o period k
    let both := a.health = .healthy ∧ b.health = .healthy
    let apart := max (o.tolAbs : Int) (max |da| |db| * o.tolRel / 1000) < |da - db|
    ∃ selected : Int,
      (both → da * db < 0 → selected = 0)
      ∧ (both → ¬ da * db < 0 → |selected| = max |da| |db| ∧ (selected = da ∨ selected = db))
      ∧ (a.health = .healthy → b.health ≠ .healthy → selected = da)
      ∧ (a.health ≠ .healthy → b.health = .healthy → selected = db)
      ∧ (|selected| ≤ 139 * period → r.2.1.delta = selected)
      ∧ (139 * period < selected → r.2.1.delta = 139 * period)
      ∧ (139 * period < -selected → r.2.1.delta = -(139 * period))
      ∧ (r.2.1.flags.overSpeed = true ↔ 139 * period < |selected|)
      ∧ (r.2.1.flags.conflict = true ↔ both ∧ da * db < 0)
      ∧ (r.2.1.flags.disagreement = true ↔ both ∧ apart)
      ∧ (r.2.1.flags.tachFailed = true ↔ ¬ both)
      ∧ r.2.1.net = u.net + r.2.1.delta ∧ r.1.net = r.2.1.net ∧ r.2.1.strobe = k
      ∧ r.1.conflicts = (if r.2.1.flags.conflict then satInc 65535 u.conflicts else u.conflicts)
      ∧ r.1.disagreements
          = (if r.2.1.flags.disagreement then satInc 65535 u.disagreements else u.disagreements))
  ∧ (∀ (u : TachUnit) (o : OdometryImage) (period : Nat) (k : Word32),
      let r := u.takeStrobe o period k
      let all := u.window ++ [r.2.1.net]
      let held := if 65 < all.length then all.tail else all
      r.2.1.speed = r.1.speed ∧ r.1.rateChanged = false
      ∧ r.1.window = (if u.rateChanged then [r.2.1.net] else held)
      ∧ (held.length = 1 → r.1.speed = 0)
      ∧ (∀ oldest x rest, held = oldest :: x :: rest → 0 < period →
          let d : Int := (held.length - 1 : Nat) * period
          ∃ q : Nat, r.1.speed = min 5000 q
            ∧ 2 * (q : Int) * d - d ≤ 2 * (|r.2.1.net - oldest| * 36)
            ∧ 2 * (|r.2.1.net - oldest| * 36) < 2 * q * d + d))
  ∧ ∀ (u : TachUnit) (o : OdometryImage) (period : Nat) (k : Word32) (x : TachId),
      let r := u.takeStrobe o period k
      let other : TachId := match x with | .a => .b | .b => .a
      let own := u.units.get x
      let there := u.units.get other
      let dOwn := own.increment o
      let dThere := there.increment o
      let own' := r.1.units.get x
      let threshold := o.failDistance * 1000
      let apart := max (o.tolAbs : Int) (max |dOwn| |dThere| * o.tolRel / 1000) < |dOwn - dThere|
      own' = { own with
        latched := own.pulses, seen := false
        silent := own'.silent, health := own'.health, recovery := own'.recovery }
      ∧ ((own'.silent : Int) =
          if own.health ≠ .failed ∧ own.seen = false ∧ there.health = .healthy
          then own.silent + |dThere| else own.silent)
      ∧ (own.health = .failed → own'.health = .failed ∧ own'.recovery = own.recovery)
      ∧ (own.health = .healthy →
          (threshold ≤ own'.silent → there.health = .healthy →
            own'.health = .failed ∧ own'.recovery = 0)
          ∧ (own'.silent < threshold ∨ there.health ≠ .healthy →
            own'.health = .healthy ∧ own'.recovery = own.recovery))
      ∧ (own.health = .recovering →
          (threshold ≤ own'.silent → own'.health = .failed ∧ own'.recovery = 0)
          ∧ (own'.silent < threshold → apart → own'.health = .recovering ∧ own'.recovery = 0)
          ∧ (own'.silent < threshold → ¬ apart → dThere = 0 →
            own'.health = .recovering ∧ own'.recovery = own.recovery)
          ∧ (own'.silent < threshold → ¬ apart → dThere ≠ 0 → own.recovery + 1 = 256 →
            own'.health = .healthy ∧ own'.recovery = 0)
          ∧ (own'.silent < threshold → ¬ apart → dThere ≠ 0 → own.recovery + 1 ≠ 256 →
            own'.health = .recovering ∧ own'.recovery = own.recovery + 1))
      ∧ r.2.2 =
          (if u.units.a.health = r.1.units.a.health then []
            else [.tachState .a u.units.a.health r.1.units.a.health])
          ++ (if u.units.b.health = r.1.units.b.health then []
            else [.tachState .b u.units.b.health r.1.units.b.health])

/-- SAMPLE_STROBE (R4, R14, R18, R42, R46, R61 to R64): the strobe number rises by 1 and goes out on SS
modulo 256, the running period has passed, the net travel moves by the used increment, the TACH_STATE
notices are offered to every port, and the strobe's items go to the distance base and to the set that the
strobe opens. Every OPEN set that has reached its deadline under the D_a in force at the strobe is closed,
one after another, the first with a staged CALIBRATION image taken up; then the set is opened, awaiting the
lanes that are not OFF, and closed at once when there is none; and a recent set leaves the list at its
eighth strobe. With no CALIBRATION image staged no other set that was OPEN is touched. The exceedance unit,
marking, run control, the ring and the generations are unchanged, and the speed window stays within its
bounds (R16). The parts are taken, and the notices of one event offered, in the order of log 5; the sets
that a take-up completes are closed in that of log 22. -/
def Obligations.SampleStrobeTaken : Prop :=
  ∀ s : State,
    let m := s.strobe.number + 1
    let r := s.tach.takeStrobe s.store.committed.odometry s.strobe.period m
    let i := r.2.1
    let due := (s.lanes.sets.filter (fun x => decide (x.condition = .opened)
      && decide (s.store.installedCal.assemblyWindow ≤ (m - x.strobe).toNat))).map SampleSet.strobe
    ∃ t u v, exec .sampleStrobe s = .next t
    ∧ t.strobe.number = m ∧ t.time = s.time + s.strobe.period
    ∧ t.strobe.ss.toNat = t.strobe.number.toNat % 256
    ∧ t.strobe.period = 1000000 / s.store.committed.sampling.rate
    ∧ t.tach = r.1
    ∧ t.base = { s.base with inbox := s.base.inbox ++ [i], queue := t.base.queue }
    ∧ u = { s with
        time := t.time, strobe := t.strobe, tach := t.tach, ports := s.portsOffered r.2.2
        base := { s.base with inbox := s.base.inbox ++ [i] } }
    ∧ State.closesEach State.closesSet due u v
    ∧ (let x : SampleSet :=
         { strobe := m, condition := .opened, items := some i, slots := ⟨none, none, none, none⟩
           awaited := ⟨decide (v.lanes.lane.sl0.state ≠ .off), decide (v.lanes.lane.sl1.state ≠ .off),
             decide (v.lanes.lane.sl2.state ≠ .off), decide (v.lanes.lane.sl3.state ≠ .off)⟩
           values := ⟨none, none, none, none, none, none, none, none, none⟩
           absent := ⟨false, false, false, false⟩, late := false }
       let opened : State := { v with lanes := { v.lanes with sets := v.lanes.sets ++ [x] } }
       ∃ w, ((∃ l, x.awaited.get l = true) → w = opened)
         ∧ ((∀ l, x.awaited.get l = false) → opened.closesSet m w)
         ∧ t = { w with lanes := { w.lanes with
             recent := w.lanes.recent.filter (fun e => decide ((m - e.closedAt).toNat < 8)) } })
    ∧ (∃ x ∈ t.lanes.sets, x.strobe = m ∧ x.items = some i
        ∧ (s.store.stagedCal = false → ∀ l, x.slots.get l = none
          ∧ x.awaited.get l = decide ((s.lanes.lane.get l).state ≠ .off)))
    ∧ (s.store.stagedCal = false → 0 < s.store.installedCal.assemblyWindow →
        (∀ x ∈ t.lanes.sets, x.condition = .opened →
          (m - x.strobe).toNat < s.store.installedCal.assemblyWindow)
        ∧ ∀ x ∈ s.lanes.sets, x.condition = .opened → x.strobe ≠ m →
          (m - x.strobe).toNat < s.store.installedCal.assemblyWindow →
          x ∈ t.lanes.sets)
    ∧ (s.WindowLaw → t.WindowLaw)
    ∧ t.geo = { s.geo with inbox := t.geo.inbox }
    ∧ t.exc = s.exc ∧ t.marking = s.marking ∧ t.run = s.run ∧ t.ring = s.ring
    ∧ t.store.committed = s.store.committed ∧ t.store.generations = s.store.generations
    ∧ t.pending = s.pending ∧ t.resetPending = s.resetPending

/-- The law of R11 is kept by every step: at most one silent distance is not 0, and at most one
tachometer is outside HEALTHY. -/
def Obligations.AtMostOneTachometerOutsideHealthy : Prop :=
  ∀ s t : State, s.TachLaw → step s = .next t → t.TachLaw

/-- The part right after reset is within every law that the steps keep. -/
def Obligations.LawsHoldAtReset : Prop :=
  State.reset.TachLaw ∧ State.reset.MarkLaw ∧ State.reset.ClassLaw ∧ State.reset.TrackerLaw
    ∧ State.reset.TurnLaw
    ∧ State.reset.RingLaw ∧ State.reset.GrantLaw ∧ State.reset.ChannelLaw ∧ State.reset.WindowLaw
    ∧ State.reset.ReservationLaw ∧ State.reset.AccessLaw
    ∧ State.reset.QueueLaw ∧ State.reset.DownLaw ∧ State.reset.marking.balanced

/-! ## Points, position and lines (2) -/

/-- DISTANCE_BASE_STROBE (R23 to R26, R29): while the run indicator is set, exactly the points j with
H < j × I ≤ R are generated, in ascending order, between the travels of the previous and the present
strobe, R − Δ and R (what each leaves is another statement's); the high-water mark H becomes the greater of
itself and the run travel R = N − N_0, and the last point is the number of whole intervals in the
high-water mark, whenever it was so before; while it is clear, none is generated and both are kept. The
strobe's items leave the inbox, the marking unit is handed R only while the indicator is set, and the sets
that the taking makes ready are released (R65). The
model's choices in it: a firing is dated by the moment of the latest strobe (log 3), and the net travel
kept is that of the latest strobe taken (log 7). -/
def Obligations.PointsFollowTheHighWaterMark : Prop :=
  ∀ (s : State) (i : StrobeItems) (rest : List StrobeItems), s.base.inbox = i :: rest →
    let sam := s.store.committed.sampling
    let im : Int := sam.interval * 1000
    let r := i.net - s.base.n0
    let handed : MarkingUnit :=
      s.marking.take s.store.committed.marking r i.strobe s.time (s.run.state == .paused)
    let taken : DistanceBase := { s.base with inbox := rest, net := i.net }
    ∃ t, exec .distanceBaseStrobe s = .next t ∧ t.base.inbox = rest ∧ t.base.net = i.net
      ∧ t.base.running = s.base.running ∧ t.base.n0 = s.base.n0 ∧ t.base.out = s.base.out
      ∧ (s.base.running = false → t.base.high = s.base.high ∧ t.base.last = s.base.last
          ∧ t.base.offset = s.base.offset ∧ t.base.correction = s.base.correction
          ∧ t.marking = s.marking
          ∧ t = State.releaseReady (State.grant { s with base := taken }))
      ∧ (s.base.running = true → 0 < im → 0 ≤ s.base.high → t.marking = handed
          ∧ ∃ js : List Nat, js.Pairwise (fun j k => j < k)
            ∧ (∀ j, j ∈ js ↔ s.base.high < (j : Int) * im ∧ (j : Int) * im ≤ r)
            ∧ (let generated := js.foldl
                (fun b j => b.generate sam s.store.committed.odometry i.strobe (r - i.delta) r j) taken
               t = State.releaseReady (State.grant { s with
                 base := { generated with high := max s.base.high r }, marking := handed })))
      ∧ (s.base.running = true → 0 < im → 0 ≤ s.base.high → (s.base.last : Int) = s.base.high / im →
          t.base.high = max s.base.high r ∧ (t.base.last : Int) = t.base.high / im
          ∧ t.base.offset + t.base.correction = s.base.offset + s.base.correction)
      ∧ t.ring = (State.grant { s with marking := t.marking }).ring
      ∧ t.exc = s.exc ∧ t.run = s.run ∧ t.tach = s.tach
      ∧ t.store.committed = s.store.committed ∧ t.pending = s.pending

/-- What one generated point leaves (R24, R29 to R31, R38, R39): the correction step, the position clamped
to 0..999,999,999 with its flag, the point-queue entry, J, and a pulse on each line whose divisor divides
the point number. The pulses of one point begin together: at once when each of its lines is inactive and no
point waits for one of them. Otherwise the point waits as a whole, on both of its lines, and a later point
overtakes it only where they share no line (the model's reading, log 4). -/
def Obligations.GeneratedPointEntry : Prop :=
  ∀ (b : DistanceBase) (sam : SamplingImage) (o : OdometryImage) (k : Word32) (left right : Int) (j : Nat),
    let step : Int := match o.fixMode with
      | .step => b.correction
      | .blend => if b.correction < 0 then -(min (-b.correction) o.blendRate)
        else min b.correction o.blendRate
    let raw : Int := b.offset + step + (if b.orientation = .up then 1 else -1) * j * sam.interval
    let b' := b.generate sam o k left right j
    b'.correction = b.correction - step ∧ b'.offset = b.offset + step ∧ b'.last = j
      ∧ (∃ e, b'.queue = b.queue ++ [e] ∧ e.point = j ∧ e.strobe = k
          ∧ e.target = (j : Int) * (sam.interval * 1000) ∧ e.left = left ∧ e.right = right
          ∧ (e.position : Int) = max 0 (min 999999999 raw)
          ∧ (e.limited = true ↔ raw < 0 ∨ 999999999 < raw)
          ∧ (e.corrected = true ↔ b.correction ≠ 0))
      ∧ (let on0 := j % sam.d0 = 0
         let on1 := j % sam.d1 = 0
         let busy := (on0 ∧ (b.ds.ds0 = .active ∨ b.ds.ds0 = .between))
           ∨ (on1 ∧ (b.ds.ds1 = .active ∨ b.ds.ds1 = .between))
           ∨ ∃ y ∈ b.ds.due, (on0 ∧ y.ds0 = true) ∨ (on1 ∧ y.ds1 = true)
         (¬ busy → b'.ds =
           { b.ds with
             ds0 := if on0 then .active else b.ds.ds0
             ds1 := if on1 then .active else b.ds.ds1 })
         ∧ (busy → b'.ds = { b.ds with due := b.ds.due ++ [⟨decide on0, decide on1⟩] }))

/-- DISTANCE_STROBE_END and MARKER_PULSE_END (R38, R39, R141): the pulse on the named line ends; where a
point waits for the line, the gap of another 10 µs runs, and at its end the point's pulses begin together
on all its lines, or wait for the other line (the gap's end as a step of the same name is the model's
choice, log 4); with no 10 µs running nothing happens (log 2). The pulse on MK ends when its pulse end
falls within the strobe period now running, and an expiry whose pulse end has been moved later no longer
falls (the test against the period is the model's, log 3). Nothing else changes. -/
def Obligations.LinePulsesEnd : Prop :=
  (∀ (s : State) (l : DsId),
    let o := s.base.ds
    let here (v : DsOutputs) : DsLine := match l with | .ds0 => v.ds0 | .ds1 => v.ds1
    let there (v : DsOutputs) : DsLine := match l with | .ds0 => v.ds1 | .ds1 => v.ds0
    let onHere (x : DsPulses) : Prop := match l with | .ds0 => x.ds0 = true | .ds1 => x.ds1 = true
    let onThere (x : DsPulses) : Prop := match l with | .ds0 => x.ds1 = true | .ds1 => x.ds0 = true
    ∃ v : DsOutputs,
      exec (.distanceStrobeEnd l) s = .next { s with base := { s.base with ds := v } }
      ∧ (here o = .inactive ∨ here o = .ready → v = o)
      ∧ (here o = .active → there v = there o ∧ v.due = o.due
          ∧ ((∃ x ∈ o.due, onHere x) → here v = .between)
          ∧ ((∀ x ∈ o.due, ¬ onHere x) → here v = .inactive))
      ∧ (here o = .between →
          (o.due = [] → here v = .inactive ∧ there v = there o ∧ v.due = [])
          ∧ ∀ x, o.due = [x] → onHere x →
            (¬ onThere x → here v = .active ∧ there v = there o ∧ v.due = [])
            ∧ (onThere x → there o = .inactive ∨ there o = .ready →
              here v = .active ∧ there v = .active ∧ v.due = [])
            ∧ (onThere x → there o = .active ∨ there o = .between →
              here v = .ready ∧ there v = there o ∧ v.due = [x])))
  ∧ (∀ s : State,
      (∀ e, s.marking.line = some e → e ≤ s.time + s.strobe.period →
        exec .markerPulseEnd s = .next { s with marking := { s.marking with line := none } })
      ∧ ((∀ e, s.marking.line = some e → s.time + s.strobe.period < e) →
        exec .markerPulseEnd s = .next s))

/-- Position Fix (R33, R34, R36, R156), in every outcome: the checks in their order, e, the pending
correction replaced by it, the discarded remainder, the FIX record, which stands behind the POINT records
written before and behind a RUN_START record still to be appended (log 9), and the two counts. The append
port is handed the record where it stands behind none (R163; log 32). -/
def Obligations.PositionFixOutcomes : Prop :=
  ∀ (s : State) (p : Port) (tag : Word16) (f pos : Nat) (force : Byte) (rest : List Request),
    f < 2 ^ 32 → pos < 2 ^ 32 →
    let r : Request := ⟨11, tag, leNat 4 f ++ leNat 4 pos ++ [force]⟩
    s.canDispatch p r rest →
    let b := s.base
    let e : Int := pos - (b.offset
      + (if b.orientation = .up then 1 else -1) * f * s.store.committed.sampling.interval)
    let refused (t : State) (c : Completion) (fs : List Field) := t.replied p r rest c fs
    let counted : State := { s with base := { b with fixesRefused := satInc 65535 b.fixesRefused } }
    exec (.positionFix p) s = .next (
      if (s.access p).position = false then refused s .notPermitted []
      else if s.run.state = .idle ∨ s.run.closing = true then refused s .wrongState []
      else if f = 0 then refused s .invalidField [natField 2 0]
      else if 999999999 < pos then refused s .invalidField [natField 2 1]
      else if b.last < f then refused counted .pointAhead []
      else if 4096 < b.last - f then refused counted .tooOld []
      else if force = 0 ∧ (s.store.committed.odometry.fixWindow : Int) < |e| then
        refused counted .outOfWindow [⟨8, e⟩]
      else
        let starting := match s.run.op with
          | some ⟨_, _, _, .start _ _ _, .recordWaiting⟩ => true
          | _ => false
        State.replied (State.grant { s with base := { b with
          correction := e, fixesApplied := satInc 65535 b.fixesApplied
          out := b.out ++ [⟨⟨f, pos, e, b.correction, force != 0⟩, s.geo.out.length, starting⟩] } })
          p r rest .ok [⟨8, e⟩, ⟨8, b.correction⟩])

/-! ## Lanes and sets (3, 4) -/

/-- LANE_FRAME (R44 to R47, R52, R62, R64): it always completes. It is ignored while the lane is OFF. A
frame that fails a check raises the error counter and sets the live flag and the three sticky flags, and
so does a duplicate of a frame in an open or a recent set and a frame whose sequence no open or recent set
has. A frame for a recent set without a frame of the lane is late: it is counted and sets the late-pending
indicator. A frame for an open set without a frame of the lane fills it: the set's slot holds its status
and payload, and it is the lane's last frame. The set closes when that leaves no awaited slot empty, with
a staged CALIBRATION image taken up first (its notices in the order of log 5, the sets it completes closed
in that of log 22); closing forms its values and its lane-absent mask, makes it recent, and releases what is
ready. -/
def Obligations.LaneFrameOutcomes : Prop :=
  ∀ (s : State) (l : Lane) (bytes : List Byte),
    let r := s.lanes.lane.get l
    let withLane (r' : LaneReceiver) : State :=
      { s with lanes := { s.lanes with lane := s.lanes.lane.set l r' } }
    let lateLanes := (withLane { r with late := satInc 65535 r.late, live := false }).lanes
    let failed := withLane
      { r with errors := satInc 255 r.errors, live := true, sticky := ⟨true, true, true⟩ }
    (∃ t, exec (.laneFrame l bytes) s = .next t)
    ∧ (r.state = .off → exec (.laneFrame l bytes) s = .next s)
    ∧ (r.state ≠ .off →
      (checkLaneFrame l bytes = .badCrc ∨ checkLaneFrame l bytes = .wrongKind →
        exec (.laneFrame l bytes) s = .next failed)
      ∧ ∀ q reading, checkLaneFrame l bytes = .wellFormed q reading →
        let isOpen (x : SampleSet) : Prop :=
          x ∈ s.lanes.sets ∧ x.condition = .opened ∧ x.strobe.toNat % 256 = q.toNat
        let isRecent (e : RecentSet) : Prop := e ∈ s.lanes.recent ∧ e.strobe.toNat % 256 = q.toNat
        ((∃ x, isOpen x) → (∀ x, isOpen x → (x.slots.get l).isSome = true) →
          exec (.laneFrame l bytes) s = .next failed)
        ∧ ((¬ ∃ x, isOpen x) → (∀ e, isRecent e → e.holds.get l = true) →
          exec (.laneFrame l bytes) s = .next failed)
        ∧ ((¬ ∃ x, isOpen x) → (∃ e, isRecent e) → (∀ e, isRecent e → e.holds.get l = false) →
          exec (.laneFrame l bytes) s = .next { s with lanes := { lateLanes with latePending := true } })
        ∧ ∀ k, (∃ x, isOpen x) → (∀ x, isOpen x → x.strobe = k ∧ x.slots.get l = none) →
          let sets := s.lanes.sets.map (fun x =>
            if x.strobe = k then { x with slots := x.slots.set l (some reading) } else x)
          let lanes : LaneUnit :=
            { s.lanes with
              lane := s.lanes.lane.set l
                { r with accepted := r.accepted + 1, live := false, last := some ⟨k, q, reading⟩ }
              sets := sets }
          let leavesNone (x : SampleSet) : Prop :=
            ∀ m, x.awaited.get m = true → m = l ∨ (x.slots.get m).isSome = true
          ((∀ x ∈ s.lanes.sets, x.condition = .opened → x.strobe = k → ¬ leavesNone x) →
            exec (.laneFrame l bytes) s = .next { s with lanes := lanes })
          ∧ ((∃ x, isOpen x ∧ leavesNone x) →
            ∃ t, exec (.laneFrame l bytes) s = .next t
              ∧ (∀ x ∈ t.lanes.sets, x.strobe = k → x.condition ≠ .opened)
              ∧ (∃ e ∈ t.lanes.recent, e.strobe = k ∧ e.closedAt = s.strobe.number
                  ∧ e.holds.get l = true)
              ∧ (s.store.stagedCal = true → t.store.installedCal = s.store.committed.calibration
                  ∧ t.store.stagedCal = false)
              ∧ State.closesSet { s with lanes := lanes } k t
              ∧ t.tach = s.tach ∧ t.strobe = s.strobe ∧ t.exc = s.exc ∧ t.marking = s.marking
              ∧ t.run = s.run ∧ t.ring = s.ring ∧ t.pending = s.pending
              ∧ t.base = { s.base with queue := t.base.queue }
              ∧ t.geo = { s.geo with inbox := t.geo.inbox }))

/-- The score of a lane at the release of a set (R55); the release itself (R47, R66, R67): the set takes
the late flag, late-pending is cleared, every queued point it brackets becomes a spatial sample, in order,
and the set is the held set; and the order of releases (R65): of the sets not yet released the front one
goes when it is CLOSED, is set 0 or follows the held set, holds its tachometer items, and the distance
base has taken its strobe; then the next is tried, and otherwise no set goes. Every port is offered the
LANE_STATE notices of the changes at the release (R57), SL0's first (the model's order, log 5). -/
def Obligations.LaneScoreAtRelease : Prop :=
  (∀ (s : State) (x : SampleSet) (l : Lane),
    let r := s.lanes.lane.get l
    let r' := (s.releaseSet x).lanes.lane.get l
    let hit := (x.slots.get l).isSome
    (r.state = .off → r' = r)
    ∧ (r.state = .seeking ∨ r.state = .lost → hit = true →
        r' = if r.hits + 1 = 4 then { r with state := .locked, hits := 0, misses := 0 }
          else { r with hits := r.hits + 1 })
    ∧ (r.state = .seeking ∨ r.state = .lost → hit = false → r' = { r with hits := 0 })
    ∧ (r.state = .locked → hit = true → r' = { r with misses := 0 })
    ∧ (r.state = .locked → hit = false →
        r' = if r.misses + 1 = 16
          then { r with missing := satInc 65535 r.missing, state := .lost, hits := 0, misses := 0 }
          else { r with missing := satInc 65535 r.missing, misses := r.misses + 1 }))
  ∧ (∀ (s : State) (x : SampleSet),
      let t := s.releaseSet x
      let released : SampleSet := { x with late := s.lanes.latePending, condition := .released }
      t.lanes.latePending = false ∧ t.lanes.sets = s.lanes.sets.tail
      ∧ t.lanes.recent = s.lanes.recent ∧ t.resampler.held = some released
      ∧ t.base = { s.base with queue := s.base.queue.filter (fun e => e.strobe ≠ x.strobe) }
      ∧ (let due := s.base.queue.filter (fun e => e.strobe = x.strobe)
         t.geo = { s.geo with
           inbox := s.geo.inbox ++ due.map (fun e => resample s.resampler.held released e) })
      ∧ t.ports = s.portsOffered (laneChanges s.lanes.lane t.lanes.lane)
      ∧ t.store = s.store ∧ t.run = s.run ∧ t.ring = s.ring ∧ t.exc = s.exc ∧ t.tach = s.tach
      ∧ t.marking = s.marking ∧ t.strobe = s.strobe ∧ t.time = s.time ∧ t.pending = s.pending
      ∧ t.resetPending = s.resetPending)
  ∧ ∀ s : State,
      let next : Word32 := match s.resampler.held with | none => 0 | some h => h.strobe + 1
      let ready (x : SampleSet) : Prop := x.condition = .closed ∧ x.strobe = next
        ∧ x.items ≠ none ∧ ∀ i ∈ s.base.inbox, i.strobe ≠ x.strobe
      (s.lanes.sets = [] → s.releaseReady = s)
      ∧ ∀ x rest, s.lanes.sets = x :: rest →
        (ready x → s.releaseReady = (s.releaseSet x).releaseReady)
        ∧ (¬ ready x → s.releaseReady = s)

/-- Read Lane Health, Read Lane Sample and Clear Lane Flags (R54, R58, R59): the first two report and change
nothing, each with the body of 13.7: the sample's is the lane's last frame, its raw payload and its
processed values (R48 to R50, absent ones encoded as 13.7 says); the third clears the requesting port's
sticky flag of the lanes named and no other. -/
def Obligations.LaneRequests : Prop :=
  ∀ (s : State) (p : Port) (tag : Word16) (n : Byte) (rest : List Request),
    (s.canDispatch p ⟨19, tag, [n]⟩ rest →
      (3 < n.toNat → exec (.readLaneHealth p) s
          = .next (s.replied p ⟨19, tag, [n]⟩ rest .invalidField [natField 2 0]))
      ∧ ∀ l, n.toNat = laneCode l → ∃ fields, exec (.readLaneHealth p) s
          = .next (s.replied p ⟨19, tag, [n]⟩ rest .ok fields)
        ∧ fields = [flagField (s.lanes.lane.get l).last.isSome,
            natField 1 (s.lanes.lane.get l).state.code, natField 1 (s.lanes.lane.get l).hits,
            natField 1 (s.lanes.lane.get l).misses, flagField (s.lanes.lane.get l).live,
            flagField ((s.lanes.lane.get l).sticky.get p), natField 1 (s.lanes.lane.get l).errors,
            natField 2 (s.lanes.lane.get l).late, natField 2 (s.lanes.lane.get l).missing,
            natField 4 (s.lanes.lane.get l).accepted.toNat,
            natField 4 (((s.lanes.lane.get l).last.map (fun f => f.strobe.toNat)).getD 0)])
    ∧ (s.canDispatch p ⟨21, tag, [n]⟩ rest →
      ((s.access p).rawRead = false → exec (.readLaneSample p) s
          = .next (s.replied p ⟨21, tag, [n]⟩ rest .notPermitted []))
      ∧ ((s.access p).rawRead = true → 3 < n.toNat → exec (.readLaneSample p) s
          = .next (s.replied p ⟨21, tag, [n]⟩ rest .invalidField [natField 2 0]))
      ∧ ((s.access p).rawRead = true → ∀ l, n.toNat = laneCode l → ∃ fields,
          exec (.readLaneSample p) s = .next (s.replied p ⟨21, tag, [n]⟩ rest .ok fields)
          ∧ (let r := s.lanes.lane.get l
             let cal := s.store.installedCal
             (r.last = none → fields = [flagField false, natField 1 r.state.code])
             ∧ ∀ f, r.last = some f →
               let st := f.reading.status
               let start := [flagField true, natField 1 r.state.code, natField 4 f.strobe.toNat,
                 natField 1 f.sequence.toNat, natField 1 st.toNat]
               let value (size : Nat) (absent noValue polarity offset raw : Int) : Field :=
                 ⟨size, if st.getLsbD 0 = true ∨ raw = noValue then absent else polarity * raw + offset⟩
               let four := value 4 (-2147483648)
               let eight := value 8 (-9223372036854775808) (-2147483648)
               (∀ d v, f.reading.payload = .head d v →
                 let head := if l = .sl1 then cal.right else cal.left
                 fields = start ++ [⟨2, d⟩, ⟨2, v⟩, four (-32768) head.dPolarity head.dOffset d,
                   four (-32768) head.vPolarity head.vOffset v])
               ∧ (∀ zL zR w phi, f.reading.payload = .inertial zL zR w phi →
                 fields = start ++ [⟨4, zL⟩, ⟨4, zR⟩, ⟨4, w⟩, ⟨4, phi⟩, eight 1 cal.zLOffset zL,
                   eight 1 cal.zROffset zR, eight cal.wPolarity cal.wOffset w,
                   eight cal.phiPolarity cal.phiOffset phi])
               ∧ ∀ x, f.reading.payload = .aux x →
                 fields = start ++ [⟨2, x⟩, ⟨2, if st = 0 then x else -32768⟩])))
    ∧ (s.canDispatch p ⟨20, tag, [n]⟩ rest →
      (15 < n.toNat → exec (.clearLaneFlags p) s
          = .next (s.replied p ⟨20, tag, [n]⟩ rest .invalidField [natField 2 0]))
      ∧ (n.toNat ≤ 15 → ∃ u : PerLane LaneReceiver,
          exec (.clearLaneFlags p) s = .next (State.replied
            { s with lanes := { s.lanes with lane := u } } p ⟨20, tag, [n]⟩ rest .ok [])
          ∧ ∀ l, u.get l =
            { s.lanes.lane.get l with
              sticky := (if n.getLsbD (laneCode l) then (s.lanes.lane.get l).sticky.set p false
                else (s.lanes.lane.get l).sticky) }))

/-- The interpolated value of R68: absent when either side is; otherwise between the two sides, the
right one at the right bracket, and the nearest integer to the exact value, halves away from zero. The
spatial sample of a point between the held set and the released one (R69). The processed values of a set
(R48 to R51): of an empty slot, and of a frame that says its values do not hold, every one is absent;
otherwise each is polarity × raw + offset, and absent where the raw value is the encoding of absent. -/
def Obligations.InterpolatedValue : Prop :=
  (∀ (e : PointEntry) (l r : Values), interpolateValues e l r =
    { dL := interpolate e l.dL r.dL, vL := interpolate e l.vL r.vL, dR := interpolate e l.dR r.dR
      vR := interpolate e l.vR r.vR, zL := interpolate e l.zL r.zL, zR := interpolate e l.zR r.zR
      w := interpolate e l.w r.w, phi := interpolate e l.phi r.phi, aux := interpolate e l.aux r.aux })
  ∧ (∀ (e : PointEntry) (v : Option Int),
      interpolate e none v = none ∧ interpolate e v none = none)
  ∧ (∀ (e : PointEntry) (x y : Int), e.left < e.target → e.target ≤ e.right →
      ∃ q : Int, interpolate e (some x) (some y) = some (x + q)
        ∧ min x y ≤ x + q ∧ x + q ≤ max x y
        ∧ (e.target = e.right → x + q = y)
        ∧ 2 * |q * (e.right - e.left) - (y - x) * (e.target - e.left)| ≤ e.right - e.left
        ∧ (2 * |q * (e.right - e.left) - (y - x) * (e.target - e.left)| = e.right - e.left →
            |(y - x) * (e.target - e.left)| < |q * (e.right - e.left)|))
  ∧ (∀ (held x : SampleSet) (i j : StrobeItems) (e : PointEntry), held.items = some i →
      x.items = some j →
      let p := resample (some held) x e
      p.point = e.point ∧ p.target = e.target ∧ p.position = e.position
      ∧ p.corrected = e.corrected ∧ p.limited = e.limited
      ∧ p.values = interpolateValues e held.values x.values ∧ p.speed = j.speed
      ∧ p.flags.disagreement = (i.flags.disagreement || j.flags.disagreement)
      ∧ p.flags.conflict = (i.flags.conflict || j.flags.conflict)
      ∧ p.flags.tachFailed = (i.flags.tachFailed || j.flags.tachFailed)
      ∧ p.flags.overSpeed = (i.flags.overSpeed || j.flags.overSpeed)
      ∧ p.late = (held.late || x.late)
      ∧ ∀ l, p.absent.get l = (held.absent.get l || x.absent.get l))
  ∧ ∀ (c : CalibrationImage) (slots : PerLane (Option Reading)),
      let v := processSlots c slots
      let of (noValue polarity offset raw : Int) : Option Int :=
        if raw = noValue then none else some (polarity * raw + offset)
      let least : Int := -2147483648
      (slots.sl0 = none → v.dL = none ∧ v.vL = none)
      ∧ (slots.sl1 = none → v.dR = none ∧ v.vR = none)
      ∧ (slots.sl2 = none → v.zL = none ∧ v.zR = none ∧ v.w = none ∧ v.phi = none)
      ∧ (slots.sl3 = none → v.aux = none)
      ∧ (∀ st d x, slots.sl0 = some ⟨st, .head d x⟩ →
          (st.getLsbD 0 = true → v.dL = none ∧ v.vL = none)
          ∧ (st.getLsbD 0 = false → v.dL = of (-32768) c.left.dPolarity c.left.dOffset d
              ∧ v.vL = of (-32768) c.left.vPolarity c.left.vOffset x))
      ∧ (∀ st d x, slots.sl1 = some ⟨st, .head d x⟩ →
          (st.getLsbD 0 = true → v.dR = none ∧ v.vR = none)
          ∧ (st.getLsbD 0 = false → v.dR = of (-32768) c.right.dPolarity c.right.dOffset d
              ∧ v.vR = of (-32768) c.right.vPolarity c.right.vOffset x))
      ∧ (∀ st zL zR w phi, slots.sl2 = some ⟨st, .inertial zL zR w phi⟩ →
          (st.getLsbD 0 = true → v.zL = none ∧ v.zR = none ∧ v.w = none ∧ v.phi = none)
          ∧ (st.getLsbD 0 = false → v.zL = of least 1 c.zLOffset zL
              ∧ v.zR = of least 1 c.zROffset zR ∧ v.w = of least c.wPolarity c.wOffset w
              ∧ v.phi = of least c.phiPolarity c.phiOffset phi))
      ∧ (∀ st x, slots.sl3 = some ⟨st, .aux x⟩ →
          (st ≠ 0 ∨ x = -32768 → v.aux = none) ∧ (st = 0 → x ≠ -32768 → v.aux = some x))

/-! ## Geometry (5) -/

/-- SPATIAL_SAMPLE_TAKE. While the segment open indicator is clear (R91): one paused record with every
channel absent and the class of its point (R88), handed to the ring at once; the window, the history and the
pending emission count are unchanged; with the last sample of a Run End the report becomes due, when every
record waiting has been appended, or at once when the drain gave no sample (R94, log 24). In an open segment
(R75, R77, R86): the sample enters the window and raises the pending emission count; the record of point n −
H_d is written when that point is in the window without a record, and then lowers the count again; no other
record is written, and the window's other samples keep their values and their marks. The record's twists are
the differences of its cross-level and those of the history entries b_s and b_l points before (R82, R85),
its chord channels the versines of the window's chord inputs, halves away from zero (R83 to R85), and its
pair enters the history, which keeps the newest 128 (R76). With the last sample of a Run End the segment is
then flushed, each record with its channels in the same way and with its class (R88, R90, R94). -/
def Obligations.SpatialSampleTaken : Prop :=
  (∀ (s : State) (x : SpatialSample) (rest : List SpatialSample), s.geo.inbox = x :: rest →
     s.geo.segOpen = false →
     ∃ t r, exec .spatialSampleTake s = .next t ∧ t = State.grant { s with geo := t.geo }
       ∧ t.geo.out = s.geo.out ++ [r] ∧ t.geo.inbox = rest ∧ t.geo.lastWritten = some x.point
       ∧ t.geo.window = s.geo.window ∧ t.geo.history = s.geo.history
       ∧ t.geo.pendingCount = s.geo.pendingCount ∧ t.geo.segOpen = false
       ∧ r.point = x.point ∧ r.position = x.position ∧ r.speed = x.speed ∧ r.flags = x.flags
       ∧ r.aux = x.values.aux ∧ r.absent = x.absent ∧ r.late = x.late
       ∧ r.corrected = x.corrected ∧ r.limited = x.limited
       ∧ r.paused = true ∧ r.runFinal = false ∧ s.classIs x.point r.cls
       ∧ (r.lowSpeed = true ↔ x.speed < s.store.committed.sampling.vMin * 10)
       ∧ (∀ c ∈ r.channels.list, c.value = none ∧ c.saturated = false)
       ∧ (s.geo.endFlush = none ∨ rest ≠ [] →
           t.geo.flushLeft = s.geo.flushLeft ∧ t.geo.endFlush = s.geo.endFlush)
       ∧ (∀ drained, s.geo.endFlush = some drained → rest = [] → t.geo.endFlush = none
           ∧ t.geo.flushLeft = some (if drained = true then t.geo.out.length else 0)))
  ∧ (∀ (s : State) (x : SpatialSample) (rest : List SpatialSample), s.geo.inbox = x :: rest →
       s.geo.segOpen = true → s.geo.endFlush = none ∨ rest ≠ [] →
       let sam := s.store.committed.sampling
       let h := max sam.halfV sam.halfA
       let m := x.point - h
       let entered := (s.geo.window ++ [formSample s.store.installedCal sam x]).filter
         (fun y => decide (x.point ≤ y.sample.point + 2 * h))
       let due := h ≤ x.point ∧ ∃ y ∈ entered, y.sample.point = m ∧ y.written = false
       ∃ t, exec .spatialSampleTake s = .next t ∧ t = State.grant { s with geo := t.geo }
         ∧ t.geo.inbox = rest ∧ t.geo.segOpen = true
         ∧ t.geo.endFlush = s.geo.endFlush ∧ t.geo.flushLeft = s.geo.flushLeft
         ∧ t.geo.segStart = some (s.geo.segStart.getD x.point)
         ∧ t.geo.window = (if due then entered.map (fun y =>
             if y.sample.point = m then { y with written := true } else y) else entered)
         ∧ (due → ∃ r, ∃ y ∈ entered, t.geo.out = s.geo.out ++ [r]
             ∧ y.sample.point = m ∧ y.written = false
             ∧ s.writes entered s.geo.history y false r ∧ t.geo.history = pairAdded s.geo.history y
             ∧ t.geo.lastWritten = some m ∧ t.geo.pendingCount = s.geo.pendingCount)
         ∧ (¬ due → t.geo.out = s.geo.out ∧ t.geo.lastWritten = s.geo.lastWritten
             ∧ t.geo.history = s.geo.history ∧ t.geo.pendingCount = s.geo.pendingCount + 1))
  ∧ (∀ (s : State) (x : SpatialSample) (drained : Bool), s.geo.inbox = [x] →
       s.geo.segOpen = true → s.geo.endFlush = some drained →
       ∃ t u rs, exec .spatialSampleTake s = .next t
         ∧ exec .spatialSampleTake { s with geo := { s.geo with endFlush := none } } = .next u
         ∧ t = State.grant { s with geo := t.geo }
         ∧ t.geo.out = u.geo.out ++ rs
         ∧ s.flushes u.geo.window u.geo.history t.geo.history rs
         ∧ t.geo.window = u.geo.window.map (fun y => { y with written := true })
         ∧ t.geo.segStart = u.geo.segStart
         ∧ t.geo.lastWritten = (match rs.getLast? with
             | some r => some r.point
             | none => u.geo.lastWritten)
         ∧ t.geo.inbox = [] ∧ t.geo.segOpen = false ∧ t.geo.pendingCount = 0
         ∧ t.geo.endFlush = none
         ∧ t.geo.flushLeft = some (if rs = [] then 0 else t.geo.out.length))

/-- The values a sample is given when it enters the window (R78 to R81, R85): GAUGE and XLEVEL exact
and then limited to ±32767 with the saturation bit, and the four chord inputs exact, each absent, with its
bit clear, when a value it needs is absent; at low speed every inertial value is absent, and GAUGE is
formed as at any other speed. -/
def Obligations.GaugeAndCrossLevelOfASample : Prop :=
  ∀ (c : CalibrationImage) (sam : SamplingImage) (x : SpatialSample),
    let v := x.values
    let y := formSample c sam x
    let limited (v : Int) : Channel := ⟨some (max (-32767) (min 32767 v)), decide (32767 < |v|)⟩
    let absent : Channel := ⟨none, false⟩
    y.sample = x ∧ y.written = false
    ∧ (∀ dL dR, v.dL = some dL → v.dR = some dR → y.gauge = limited (c.g0 + (dL + dR)))
    ∧ (v.dL = none ∨ v.dR = none → y.gauge = absent)
    ∧ (y.lowSpeed = true ↔ x.speed < sam.vMin * 10)
    ∧ (y.lowSpeed = true → y.xlevel = absent ∧ y.yL = none ∧ y.yR = none ∧ y.aL = none ∧ y.aR = none)
    ∧ (y.lowSpeed = false →
        (∀ phi vL vR, v.phi = some phi → v.vL = some vL → v.vR = some vR →
          y.xlevel = limited (roundDiv (c.railDistance * phi) 1000000 - (vL - vR)))
        ∧ (v.phi = none ∨ v.vL = none ∨ v.vR = none → y.xlevel = absent)
        ∧ (∀ z u, v.zL = some z → v.vL = some u → y.yL = some (z - u))
        ∧ (v.zL = none ∨ v.vL = none → y.yL = none)
        ∧ (∀ z u, v.zR = some z → v.vR = some u → y.yR = some (z - u))
        ∧ (v.zR = none ∨ v.vR = none → y.yR = none)
        ∧ (∀ w d, v.w = some w → v.dL = some d → y.aL = some (w + d))
        ∧ (v.w = none ∨ v.dL = none → y.aL = none)
        ∧ (∀ w d, v.w = some w → v.dR = some d → y.aR = some (w - d))
        ∧ (v.w = none ∨ v.dR = none → y.aR = none))

/-- The blocks' taking of a Run Start and of a Run Resume (R22, R30, R92, R93, R132, R145, R150, R154):
each clears what its chapter says; with the third of the three first takings the Run Start goes to the
distance base, whose taking completes the operation but for its response. The model's choices in it: N_0 is
the net travel of the latest strobe the distance base has taken (log 7), and the clause on
MARKING_RUN_START empties a mark queue that is not empty, uncounted (log 33). -/
def Obligations.RunStartAndResumeTakenByBlocks : Prop :=
  ∀ (s : State) (o : Operation), s.run.op = some o →
    let at_ (g e m : Bool) : RunControl :=
      let stage : Stage :=
        if g = true ∧ e = true ∧ m = true then .baseStarting else .starting g e m
      { s.run with op := some { o with stage := stage } }
    (∀ e m, o.stage = .starting false e m → exec .geometryRunStart s = .next
      { s with
        geo := { s.geo with
          window := [], history := [], segStart := none, pendingCount := 0, segOpen := true
          lastWritten := none }
        run := at_ true e m })
    ∧ (∀ g m position orientation cls, o.stage = .starting g false m →
      o.what = .start position orientation cls → exec .exceedanceRunStart s = .next
      { s with
        exc := { s.exc with
          trackers := List.replicate 16 none, number := 0, evaluated := 0, cls := cls, classQueue := []
          counts := { level1 := 0, level2 := 0, level3 := 0, suppressed := 0, urgent := 0 } }
        run := at_ g true m })
    ∧ (∀ g e, o.stage = .starting g e false → exec .markingRunStart s = .next
      { s with
        marking := { s.marking with
          queue := [], rm := 0
          counts := { queued := 0, fired := 0, late := 0, merged := 0, dropped := 0, discarded := 0 } }
        run := at_ g e true })
    ∧ (∀ position orientation cls, o.stage = .baseStarting →
      o.what = .start position orientation cls → exec .distanceBaseRunStart s = .next
      { s with
        base := { s.base with
          n0 := s.base.net, high := 0, last := 0, queue := [], offset := position
          orientation := orientation, correction := 0, fixesApplied := 0, fixesRefused := 0
          running := true }
        run := { s.run with op := some { o with stage := .completing } } })
    ∧ (o.stage = .geometryResuming → exec .geometryRunResume s = .next
      { s with
        geo := { s.geo with
          window := [], history := [], segStart := none, pendingCount := 0, segOpen := true }
        run := { s.run with op := some { o with stage := .completing } } })

/-- GEOMETRY_RUN_PAUSE (R90): the records of every point in the window without one are written, in order,
with the run-final flag and without the paused flag, each with its class (R88) and its channels formed on
the window and on the history that the one before it leaves (R82 to R85); then every sample of the window
has its record, with its values as they were, nothing is pending, the segment is closed, and the report is
due when the last of them has been appended, or at once when there is none. -/
def Obligations.PauseFlushesTheSegment : Prop :=
  ∀ (s : State) (o : Operation), s.run.op = some o → o.stage = .geometryPausing →
    let pending := s.geo.window.filter (fun y => !y.written)
    ∃ t rs, exec .geometryRunPause s = .next t ∧ t.geo.out = s.geo.out ++ rs
      ∧ s.flushes s.geo.window s.geo.history t.geo.history rs
      ∧ t.geo.window = s.geo.window.map (fun y => { y with written := true })
      ∧ t.geo.inbox = s.geo.inbox ∧ t.geo.segStart = s.geo.segStart ∧ t.geo.endFlush = s.geo.endFlush
      ∧ t.geo.pendingCount = 0 ∧ t.geo.segOpen = false
      ∧ t.geo.flushLeft = some (if pending = [] then 0 else t.geo.out.length)
      ∧ t.geo.lastWritten = (match pending.getLast? with
          | some y => some y.sample.point
          | none => s.geo.lastWritten)
      ∧ t.run = { s.run with op := some { o with stage := .flushing } }
      ∧ t = State.grant { s with geo := t.geo, run := t.run }

/-! ## Limits and exceedances (6, 7) -/

/-- The fields of a LIMITS image by their indices (R99): the threshold of channel c, class q, sense e
and level n stands at index ((c × 4 + q) × 2 + e) × 3 + (n − 1), −32768 encodes absent, and parameter k
of channel c stands at index 192 + c × 4 + k. -/
def Obligations.LimitFieldIndices : Prop :=
  ∀ (v : List Int) (c q n : Nat) (e : Sense), v.length = 224 → c < 8 → q < 4 → 1 ≤ n → n ≤ 3 →
    let i := ((c * 4 + q) * 2 + (match e with | .upper => 0 | .lower => 1)) * 3 + (n - 1)
    let field (k : Nat) : Int := v.getD k 0
    i < 192
    ∧ (limitsOf v).threshold c q e n = (if field i = -32768 then none else some (field i))
    ∧ (limitsOf v).paramsOf c
        = { hysteresis := (field (192 + c * 4)).toNat, closeCount := (field (192 + c * 4 + 1)).toNat
            minLength := (field (192 + c * 4 + 2)).toNat, absentRun := (field (192 + c * 4 + 3)).toNat }

/-- The zone of a channel value in one sense (R103, with the level of R102). -/
def Obligations.ZoneOfAValue : Prop :=
  ∀ (l : LimitsImage) (c q : Nat) (e : Sense),
    let beyond (v x : Int) : Prop := match e with | .upper => x < v | .lower => v < x
    let present (n : Nat) (t : Int) : Prop := l.threshold c q e n = some t
    let none_ (n : Nat) : Prop := l.threshold c q e n = none
    let h : Int := (l.paramsOf c).hysteresis
    let far (t : Int) : Int := match e with | .upper => t - h | .lower => t + h
    let isReference (t : Int) : Prop :=
      present 1 t ∨ (none_ 1 ∧ present 2 t) ∨ (none_ 1 ∧ none_ 2 ∧ present 3 t)
    zoneOf l c q e none = .absent
    ∧ (none_ 1 → none_ 2 → none_ 3 → ∀ v, zoneOf l c q e (some v) = .noLimit)
    ∧ ∀ t v : Int, isReference t →
      (beyond v t → ∃ n, zoneOf l c q e (some v) = .exceeding n ∧ 1 ≤ n ∧ n ≤ 3
        ∧ (∃ x, present n x ∧ beyond v x)
        ∧ ∀ m x, n < m → m ≤ 3 → present m x → ¬ beyond v x)
      ∧ (¬ beyond v t → beyond v (far t) → zoneOf l c q e (some v) = .band)
      ∧ (¬ beyond v t → ¬ beyond v (far t) → zoneOf l c q e (some v) = .inside)
      ∧ (h = 0 → zoneOf l c q e (some v) ≠ .band)

/-- POINT_EVALUATION (R109, R114, R115, R123): E becomes the point, a staged LIMITS image is taken up,
and the first class-queue entry is applied, with its CLASS record, when its effective point is the point.
The trackers then act in tracker order, tracker i being that of channel i / 2 and of the upper sense for
an even i, each on what the one before it left, under the image and the class now in force, and with its
class-changed indicator set first where the class has changed: none acts while a record of the evaluation
waits. As the record is appended, the evaluation goes on with the next tracker, under the MARKING image and
with the marking unit then (that RING_APPEND is the step in which it goes on is the model's reading, log
34). A paused record reaches no tracker (that it sets no class-changed indicator either is the model's
reading, log 23). Nothing is taken while a record of the previous item waits or the item is in progress. -/
def Obligations.PointEvaluated : Prop :=
  let act (x : Judging) (i : Nat) : Tracker → Tally → Tracker × Tally :=
    judge x (i / 2) (if i % 2 = 0 then .upper else .lower)
  (∀ (s : State) (r : PointRecord) (rest : List EvalItem), s.exc.evalList = .point r :: rest →
    (s.exc.out ≠ [] ∨ s.exc.turn ≠ none → exec .pointEvaluation s = .next s)
    ∧ (s.exc.out = [] → s.exc.turn = none → ∃ t, exec .pointEvaluation s = .next t
      ∧ t = State.grant { s with exc := t.exc, marking := t.marking, store := t.store }
      ∧ t.exc.evaluated = r.point ∧ t.exc.evalList = rest ∧ t.exc.truncation = s.exc.truncation
      ∧ t.store.stagedLim = false
      ∧ t.store.installedLim
          = (if s.store.stagedLim then s.store.committed.limits else s.store.installedLim)
      ∧ t.store.committed = s.store.committed ∧ t.store.generations = s.store.generations
      ∧ t.store.stagedCal = s.store.stagedCal ∧ t.store.installedCal = s.store.installedCal
      ∧ (∀ e q, s.exc.classQueue = e :: q → e.effective = r.point →
          t.exc.cls = e.cls ∧ t.exc.classQueue = q ∧ t.marking = s.marking
          ∧ t.exc.out = [.cls ⟨r.point, r.position, e.cls, s.exc.cls, e.requested, e.port⟩]
          ∧ t.exc.number = s.exc.number ∧ t.exc.counts = s.exc.counts
          ∧ (r.paused = true → t.exc.trackers = s.exc.trackers ∧ t.exc.turn = none)
          ∧ (r.paused = false → (s.exc.trackers.length = 16 → t.exc.turn = some (.point r 0))
            ∧ t.exc.trackers = if e.cls = s.exc.cls then s.exc.trackers
              else s.exc.trackers.map (fun k => k.map (fun g => { g with classChanged := true }))))
      ∧ ((∀ e q, s.exc.classQueue = e :: q → e.effective ≠ r.point) →
          t.exc.cls = s.exc.cls ∧ t.exc.classQueue = s.exc.classQueue
          ∧ (r.paused = true → t.exc.trackers = s.exc.trackers ∧ t.exc.number = s.exc.number
            ∧ t.exc.counts = s.exc.counts ∧ t.marking = s.marking ∧ t.exc.out = []
            ∧ t.exc.turn = none)
          ∧ (r.paused = false → s.actsTo t
              (act { limits := t.store.installedLim, cls := s.exc.cls
                     marking := s.store.committed.marking
                     sampling := s.store.committed.sampling, record := r }) 0 (.point r)))))
  ∧ ∀ (s : State) (r : PointRecord) (next : Nat), s.exc.turn = some (.point r next) →
      next < s.exc.trackers.length →
      s.actsTo s.goOn
        (act { limits := s.store.installedLim, cls := s.exc.cls, marking := s.store.committed.marking
               sampling := s.store.committed.sampling, record := r }) next (.point r)
      ∧ s.goOn = { s with
          marking := s.goOn.marking
          exc := { s.exc with
            trackers := s.goOn.exc.trackers, number := s.goOn.exc.number, counts := s.goOn.exc.counts
            out := s.goOn.exc.out, turn := s.goOn.exc.turn } }

/-- A CLEAR tracker (R116, R124, R125): it opens at an EXCEEDING value, with an URGENT record at level 3
and a mark request at the trigger level, and otherwise does nothing. -/
def Obligations.ClearTrackerOpens : Prop :=
  ∀ (x : Judging) (c : Nat) (e : Sense) (y : Tally),
    let r := x.record
    (∀ n v, r.value c = some v → zoneOf x.limits c x.cls e (some v) = .exceeding n →
      let answer := y.marking.decideMark x.marking
        (r.point * (x.sampling.interval * 1000) + x.marking.offset * 1000) r.point (.tracker c e)
      let asks := x.marking.trigger ≤ n
      judge x c e none y =
        (some { startPoint := r.point, startPosition := r.position, endPoint := r.point
                endPosition := r.position, level := n, peakPoint := r.point
                peakPosition := r.position, peakValue := v, classAtPeak := x.cls
                speedAtPeak := r.speed, clearCount := 0, absentRun := 0, containsAbsent := false
                classChanged := false, correctionThroughEnd := r.corrected
                correctionSinceEnd := false, urgent := decide (n = 3)
                mark := if asks then some answer.2 else none },
          { number := y.number
            counts := if n = 3 then { y.counts with urgent := satInc 65535 y.counts.urgent }
              else y.counts
            out := if n = 3 then y.out ++ [.urgent ⟨c, e, r.point, r.position, v⟩] else y.out
            marking := if asks then answer.1 else y.marking }))
    ∧ ((∀ n, zoneOf x.limits c x.cls e (r.value c) ≠ .exceeding n) → judge x c e none y = (none, y))

/-- An OPEN tracker at an EXCEEDING value (R117, R118): the level is the greater one and never falls, the
end moves to the point, the counts return to 0, the correction indicators are folded, and the peak is
replaced only by a value strictly beyond it; an URGENT record is written once, at level 3, and counted, and
a mark asked for once, at the trigger level, with the point's target, and decided at once (R124, R125,
R137). -/
def Obligations.OpenTrackerExceeds : Prop :=
  ∀ (x : Judging) (c : Nat) (e : Sense) (g : Progress) (y : Tally) (n : Nat) (v : Int),
    let r := x.record
    r.value c = some v → zoneOf x.limits c x.cls e (some v) = .exceeding n →
    let replaced : Prop := match e with | .upper => g.peakValue < v | .lower => v < g.peakValue
    ∃ g' y', judge x c e (some g) y = (some g', y')
      ∧ g'.level = max g.level n ∧ g'.endPoint = r.point ∧ g'.endPosition = r.position
      ∧ g'.startPoint = g.startPoint ∧ g'.startPosition = g.startPosition
      ∧ g'.clearCount = 0 ∧ g'.absentRun = 0
      ∧ g'.containsAbsent = g.containsAbsent ∧ g'.classChanged = g.classChanged
      ∧ g'.correctionThroughEnd
          = (g.correctionThroughEnd || g.correctionSinceEnd || r.corrected)
      ∧ g'.correctionSinceEnd = false
      ∧ (replaced → g'.peakPoint = r.point ∧ g'.peakPosition = r.position ∧ g'.peakValue = v
          ∧ g'.classAtPeak = x.cls ∧ g'.speedAtPeak = r.speed)
      ∧ (¬ replaced → g'.peakPoint = g.peakPoint ∧ g'.peakPosition = g.peakPosition
          ∧ g'.peakValue = g.peakValue ∧ g'.classAtPeak = g.classAtPeak
          ∧ g'.speedAtPeak = g.speedAtPeak)
      ∧ g'.urgent = (g.urgent || decide (max g.level n = 3))
      ∧ y'.number = y.number
      ∧ (g.urgent = false → max g.level n = 3 →
          y'.out = y.out ++ [.urgent ⟨c, e, r.point, r.position, v⟩]
          ∧ y'.counts = { y.counts with urgent := satInc 65535 y.counts.urgent })
      ∧ (g.urgent = true ∨ max g.level n ≠ 3 → y'.out = y.out ∧ y'.counts = y.counts)
      ∧ (g.mark ≠ none ∨ max g.level n < x.marking.trigger →
          g'.mark = g.mark ∧ y'.marking = y.marking)
      ∧ (g.mark = none → x.marking.trigger ≤ max g.level n →
          let answer := y.marking.decideMark x.marking
            (r.point * (x.sampling.interval * 1000) + x.marking.offset * 1000) r.point (.tracker c e)
          g'.mark = some answer.2 ∧ y'.marking = answer.1)

/-- An OPEN tracker at a BAND, an INSIDE and an ABSENT value (R119, R120, R121): what each leaves of the
exceedance, and when each closes it; what an EXCEEDING value does to the two counts; and that an absent
value at a CLEAR tracker does nothing. -/
def Obligations.OpenTrackerWithin : Prop :=
  ∀ (x : Judging) (c : Nat) (e : Sense) (g : Progress) (y : Tally),
    let z := zoneOf x.limits c x.cls e (x.record.value c)
    let since := g.correctionSinceEnd || x.record.corrected
    let inside : Progress :=
      { g with clearCount := g.clearCount + 1, absentRun := 0, correctionSinceEnd := since }
    let absent : Progress :=
      { g with containsAbsent := true, absentRun := g.absentRun + 1, correctionSinceEnd := since }
    (z = .band → judge x c e (some g) y
        = (some { g with absentRun := 0, correctionSinceEnd := since }, y))
    ∧ ((x.limits.paramsOf c).hysteresis = 0 → z ≠ .band
        ∧ (z ≠ .absent → z ≠ .noLimit → (∀ n, z ≠ .exceeding n) → z = .inside))
    ∧ (∀ n, z = .exceeding n → ∃ g', (judge x c e (some g) y).1 = some g'
        ∧ g'.clearCount = 0 ∧ g'.absentRun = 0)
    ∧ (z = .inside → judge x c e (some g) y =
        if (x.limits.paramsOf c).closeCount ≤ g.clearCount + 1
        then (none, closeExceedance x.limits x.sampling c e .count inside y) else (some inside, y))
    ∧ (z = .absent → judge x c e (some g) y =
        if (x.limits.paramsOf c).absentRun ≤ g.absentRun + 1
        then (none, closeExceedance x.limits x.sampling c e .absentRun absent y) else (some absent, y))
    ∧ (z = .absent → judge x c e none y = (none, y))
    ∧ ((x.limits.paramsOf c).minLength ≤ g.endPoint + 1 - g.startPoint →
        (∃ i, (closeExceedance x.limits x.sampling c e .count g y).out = y.out ++ [.exceedance i]
          ∧ i.interrupted = false ∧ i.truncatedByEnd = false ∧ i.truncatedByPause = false)
        ∧ (∃ i, (closeExceedance x.limits x.sampling c e .absentRun g y).out = y.out ++ [.exceedance i]
          ∧ i.interrupted = true ∧ i.endPoint = g.endPoint
          ∧ i.length = (g.endPoint + 1 - g.startPoint) * x.sampling.interval
          ∧ i.containsAbsent = g.containsAbsent))

/-- The closing of an exceedance (R126, R128): below L_min it is suppressed and counted; otherwise the
exceedance number rises by 1 and one EXCEEDANCE record with the exceedance's data is handed on and
counted by its level. A NO_LIMIT zone closes at once, interrupted only with the class unchanged (R122). -/
def Obligations.ExceedanceClosed : Prop :=
  (∀ (l : LimitsImage) (sam : SamplingImage) (c : Nat) (e : Sense) (why : Closing) (g : Progress)
      (y : Tally), 1 ≤ g.level → g.level ≤ 3 →
    let n := g.endPoint + 1 - g.startPoint
    let y' := closeExceedance l sam c e why g y
    y'.marking = y.marking
    ∧ (n < (l.paramsOf c).minLength → y'.number = y.number ∧ y'.out = y.out
        ∧ y'.counts = { y.counts with suppressed := satInc 65535 y.counts.suppressed })
    ∧ ((l.paramsOf c).minLength ≤ n → y'.number = y.number + 1
        ∧ y'.counts = (if g.level = 1 then { y.counts with level1 := satInc 65535 y.counts.level1 }
            else if g.level = 2 then { y.counts with level2 := satInc 65535 y.counts.level2 }
            else { y.counts with level3 := satInc 65535 y.counts.level3 })
        ∧ y'.out = y.out ++ [.exceedance
            { number := y.number + 1, channel := c, sense := e, level := g.level
              classAtPeak := g.classAtPeak, startPoint := g.startPoint, endPoint := g.endPoint
              peakPoint := g.peakPoint, startPosition := g.startPosition
              endPosition := g.endPosition, peakPosition := g.peakPosition
              peakValue := g.peakValue, speed := g.speedAtPeak, length := n * sam.interval
              outcome := g.mark.getD .none, containsAbsent := g.containsAbsent
              interrupted := decide (why = .absentRun ∨ (why = .limitsLost ∧ g.classChanged = false))
              truncatedByEnd := decide (why = .runEnd), truncatedByPause := decide (why = .pause)
              corrected := g.correctionThroughEnd, classChanged := g.classChanged }]))
  ∧ ∀ (x : Judging) (c : Nat) (e : Sense) (g : Progress) (y : Tally),
      zoneOf x.limits c x.cls e (x.record.value c) = .noLimit →
      judge x c e (some g) y = (none, closeExceedance x.limits x.sampling c e .limitsLost g y)

/-- TRUNCATION (R126, R129, R131): it always completes. Nothing is taken while a record of the previous
item waits or that item is in progress. Otherwise the OPEN trackers are closed in tracker order, tracker i
being that of channel i / 2 and of the upper sense for an even i, none while a record waits: each exceedance
is suppressed and counted, or numbered, recorded with the cause's flag and counted by its level, and every
one that was OPEN is one or the other, or still OPEN while its turn has not come. As the record is appended,
the truncation goes on with the next tracker (that RING_APPEND is the step in which it goes on is the
model's reading, log 34). When every tracker has been handled, the report is due with the last append, with
the number closed, and for the cause END a staged LIMITS image is installed. Marks are not touched. -/
def Obligations.TruncationClosesEveryTracker : Prop :=
  (∀ s : State, ∃ t, exec .truncation s = .next t)
  ∧ (∀ (s : State) (cause : TruncationCause) (rest : List EvalItem),
    s.exc.evalList = .truncation cause :: rest →
    (s.exc.out ≠ [] ∨ s.exc.turn ≠ none → exec .truncation s = .next s)
    ∧ (s.exc.out = [] → s.exc.turn = none → ∃ t, exec .truncation s = .next t
      ∧ t = State.grant { s with exc := t.exc, store := t.store }
      ∧ State.truncatesTo { s with exc := { s.exc with evalList := rest } } t cause
          (s.exc.trackers.filter Option.isSome).length 0))
  ∧ ∀ (s : State) (cause : TruncationCause) (closed next : Nat),
      s.exc.turn = some (.truncation cause closed next) → next < s.exc.trackers.length → s.exc.out = [] →
      s.truncatesTo s.goOn cause closed next
      ∧ s.goOn = { s with exc := s.goOn.exc, store := s.goOn.store }

/-- The exceedance number is raised just before an EXCEEDANCE record is handed on (R127). In each step of an
evaluation or a truncation, that of the append in which it goes on among them (log 34), it is raised by 1
exactly where one record is handed on, which carries it; the record handed on before has then been appended.
No other command but the exceedance unit's Run Start and a reset (at RESET_LINE, or with a Reset Part's
answer sent or its link going DOWN) touches the number, the run counts or the records handed on. -/
def Obligations.ExceedanceNumbersFollow : Prop :=
  (∀ (s t : State) (c : Instr), c = .pointEvaluation ∨ c = .truncation ∨ c = .ringAppend →
    s.exc.out.length ≤ 1 → exec c s = .next t →
    (t.exc.number = s.exc.number
      ∨ (t.exc.number = s.exc.number + 1
        ∧ (∃ r, t.exc.out = [.exceedance r] ∧ r.number = t.exc.number)
        ∧ (c ≠ .ringAppend → s.exc.out = [])
        ∧ (c = .ringAppend → ∃ b x, s.exc.out = [b] ∧ t.ring.contents.getLast? = some x ∧ x.body = b)))
    ∧ ∀ r, .exceedance r ∈ t.exc.out → .exceedance r ∈ s.exc.out
        ∨ (r.number = s.exc.number + 1 ∧ t.exc.number = s.exc.number + 1))
  ∧ ∀ (s t : State) (c : Instr), exec c s = .next t → c ≠ .pointEvaluation → c ≠ .truncation →
      c ≠ .ringAppend → c ≠ .exceedanceRunStart → c ≠ .resetLine → (∀ p, c ≠ .resetPart p) →
      (∀ p, c ≠ .transmitFrameEnd p) → (∀ p, c ≠ .lossOfSignal p) →
      t.exc.number = s.exc.number ∧ t.exc.counts = s.exc.counts ∧ t.exc.out = s.exc.out

/-- The laws of R106, R113 and R117 are kept by every step: the class queue stays within 8 entries in
strictly ascending order of effective point; there are sixteen trackers, and every OPEN one's level lies
in 1..3. So is that of an evaluation or a truncation in progress (R114, R115, R127): at most one record of
the exceedance unit waits, and none is in progress but while one does, with a tracker still to act (that it
goes on in the step of the append is the model's reading, log 34). -/
def Obligations.ExceedanceLawsStay : Prop :=
  (∀ s t : State, s.TrackerLaw → step s = .next t → t.TrackerLaw)
  ∧ (∀ s t : State, s.ClassLaw → step s = .next t → t.ClassLaw)
  ∧ (∀ s t : State, s.TurnLaw → step s = .next t → t.TurnLaw)

/-- Class Change (R107, R156), in every outcome: the checks in their order, the effective point, and the
entry replaced, keeping its place, or inserted in its place in ascending order of effective point. -/
def Obligations.ClassChangeOutcomes : Prop :=
  ∀ (s : State) (p : Port) (tag : Word16) (point : Nat) (cls : Byte) (rest : List Request),
    point < 2 ^ 32 →
    let r : Request := ⟨12, tag, leNat 4 point ++ [cls]⟩
    s.canDispatch p r rest →
    let effective := if s.exc.evaluated < point then point else s.exc.evaluated + 1
    let queue := insertClass ⟨effective, cls.toNat, point, p⟩ s.exc.classQueue
    let refused (c : Completion) (fs : List Field) := s.replied p r rest c fs
    exec (.classChange p) s = .next (
      if (s.access p).position = false then refused .notPermitted []
      else if s.run.state = .idle ∨ s.run.closing = true then refused .wrongState []
      else if point = 0 then refused .invalidField [natField 2 0]
      else if 3 < cls.toNat then refused .invalidField [natField 2 1]
      else if (∀ e ∈ s.exc.classQueue, e.effective ≠ effective) ∧ 8 ≤ s.exc.classQueue.length then
        refused .queueFull []
      else State.replied { s with exc := { s.exc with classQueue := queue } } p r rest .ok
        [natField 4 effective])
    ∧ (s.ClassLaw →
        (∀ before x after, s.exc.classQueue = before ++ x :: after → x.effective = effective →
          queue = before ++ ⟨effective, cls.toNat, point, p⟩ :: after)
        ∧ ((∀ x ∈ s.exc.classQueue, x.effective ≠ effective) →
          ∃ before after, s.exc.classQueue = before ++ after
            ∧ queue = before ++ ⟨effective, cls.toNat, point, p⟩ :: after
            ∧ (∀ x ∈ before, x.effective < effective) ∧ ∀ x ∈ after, effective < x.effective))

/-! ## Marking (8) -/

/-- The decision of a mark request (R137), by the first condition that applies; the queue's order after
an insertion is that of R138. -/
def Obligations.MarkRequestDecided : Prop :=
  ∀ (u : MarkingUnit) (mk : MarkingImage) (t : Int) (p : Nat) (src : MarkSource),
    let near := ∃ x ∈ u.queue, |x.target - t| ≤ mk.merge * 1000
    let d := u.decideMark mk t p src
    (mk.enable = false → d = (u, .none))
    ∧ (mk.enable = true → t ≤ u.rm →
        d = ({ u with counts := { u.counts with late := u.counts.late + 1 } }, .late))
    ∧ (mk.enable = true → u.rm < t → near →
        d = ({ u with counts := { u.counts with merged := u.counts.merged + 1 } }, .merged))
    ∧ (mk.enable = true → u.rm < t → ¬ near → 16 ≤ u.queue.length →
        d = ({ u with counts := { u.counts with dropped := u.counts.dropped + 1 } }, .dropped))
    ∧ (mk.enable = true → u.rm < t → ¬ near → u.queue.length < 16 →
        d.2 = .queued
        ∧ d.1 = { u with
            queue := d.1.queue, counts := { u.counts with queued := u.counts.queued + 1 } }
        ∧ ∃ before after, u.queue = before ++ after ∧ d.1.queue = before ++ ⟨t, p, src⟩ :: after
          ∧ (∀ x ∈ before, x.target < t) ∧ (markQueueOk u.queue → ∀ x ∈ after, t < x.target))

/-- The taking of a run travel (R140 to R142): R_m is set; the entries at the front whose target it
reaches leave the queue, each with a MARK record in order and counted as fired; MK's pulse end moves to
a pulse duration after a firing and is kept without one. -/
def Obligations.MarksFireAtRunTravel : Prop :=
  ∀ (u : MarkingUnit) (mk : MarkingImage) (travel : Int) (k : Word32) (moment : Nat) (paused : Bool),
    ∃ fired, u.queue = fired ++ (u.take mk travel k moment paused).queue
      ∧ (∀ x ∈ fired, x.target ≤ travel)
      ∧ (∀ x rest, (u.take mk travel k moment paused).queue = x :: rest → travel < x.target)
      ∧ (u.take mk travel k moment paused).rm = travel
      ∧ (u.take mk travel k moment paused).counts
          = { u.counts with fired := u.counts.fired + fired.length }
      ∧ (u.take mk travel k moment paused).out = u.out ++ fired.map (fun x =>
          .mark ⟨x.point, x.source, x.target, travel, k, paused⟩)
      ∧ (u.take mk travel k moment paused).line
          = (if fired = [] then u.line else some (moment + mk.pulse * 1000))

/-- Manual Mark (R143, R156), in every outcome. -/
def Obligations.ManualMarkOutcomes : Prop :=
  ∀ (s : State) (p : Port) (tag : Word16) (j : Nat) (rest : List Request), j < 2 ^ 32 →
    let r : Request := ⟨13, tag, leNat 4 j⟩
    s.canDispatch p r rest →
    let mk := s.store.committed.marking
    let t : Int := j * (s.store.committed.sampling.interval * 1000) + mk.offset * 1000
    let d := s.marking.decideMark mk t j (.manual p)
    let refused (c : Completion) (fs : List Field) := s.replied p r rest c fs
    exec (.manualMark p) s = .next (
      if (s.access p).position = false then refused .notPermitted []
      else if s.run.state = .idle ∨ s.run.closing = true then refused .wrongState []
      else if j = 0 then refused .invalidField [natField 2 0]
      else if s.base.last < j then refused .pointAhead []
      else if 4096 < s.base.last - j then refused .tooOld []
      else if mk.enable = false then refused .markingOff []
      else State.replied { s with marking := d.1 } p r rest .ok
        [natField 1 (match d.2 with
          | .none => 0 | .queued => 1 | .merged => 2 | .late => 3 | .dropped => 4), ⟨8, t⟩])

/-- The laws of R138 and R146. Every step keeps at most 16 mark queue entries in strictly ascending target
order, and every command keeps marks queued equal to marks fired, discarded and present. For
MARKING_RUN_START with a mark in the queue this rests on the model's choice of log 33: the mark leaves the
queue. -/
def Obligations.MarkingLawsStay : Prop :=
  (∀ s t : State, s.MarkLaw → step s = .next t → t.MarkLaw)
  ∧ (∀ (s t : State) (c : Instr), s.marking.balanced → exec c s = .next t → t.marking.balanced)

/-! ## Runs (9) -/

/-- Run Start (R148 to R151), in every outcome: the checks in their order; accepted, the run number, the
run state, the operation in progress and the RUN_START record, handed to the append port (R163; log 32),
and no response yet. -/
def Obligations.RunStartOutcomes : Prop :=
  ∀ (s : State) (p : Port) (tag : Word16) (position : Nat) (orientation cls : Byte)
      (rest : List Request), position < 2 ^ 32 →
    let r : Request := ⟨7, tag, leNat 4 position ++ [orientation, cls]⟩
    s.canDispatch p r rest →
    let refused (c : Completion) (fs : List Field) := s.replied p r rest c fs
    let sam := s.store.committed.sampling
    let o : Orientation := if orientation = 0 then .up else .down
    exec (.runStart p) s = .next (
      if (s.access p).runControl = false then refused .notPermitted []
      else if s.run.op ≠ none then refused .wrongState []
      else if s.run.state ≠ .idle then refused .wrongState []
      else if 999999999 < position then refused .invalidField [natField 2 0]
      else if 1 < orientation.toNat then refused .invalidField [natField 2 1]
      else if 3 < cls.toNat then refused .invalidField [natField 2 2]
      else State.parked (State.grant { s with run := { s.run with
        state := .running
        number := if s.run.number = 65535 then 1 else s.run.number + 1
        op := some ⟨p, tag, .idle, .start position o cls.toNat, .recordWaiting⟩
        out := s.run.out ++ [.runStart ⟨p, position, o, cls.toNat, sam.interval, sam.rate,
          max sam.halfV sam.halfA, s.store.generations⟩] } }) p rest)

/-- Run Pause, Run Resume and Run End (R148, R152, R154, R155), in every outcome; the RESUME record is
handed to the append port (R163; log 32). -/
def Obligations.RunPauseResumeEndOutcomes : Prop :=
  ∀ (s : State) (p : Port) (tag : Word16) (code : Byte) (rest : List Request),
    let r : Request := ⟨code, tag, []⟩
    s.canDispatch p r rest →
    let barred (admitted : Bool) : Option Completion :=
      if (s.access p).runControl = false then some .notPermitted
      else if s.run.op ≠ none ∨ admitted = false then some .wrongState
      else none
    let began (what : RunOperation) (stage : Stage) : Option Operation :=
      some ⟨p, tag, s.run.state, what, stage⟩
    (code = 8 →
      (∀ c, barred (s.run.state == .running) = some c →
        exec (.runPause p) s = .next (s.replied p r rest c []))
      ∧ (barred (s.run.state == .running) = none → exec (.runPause p) s = .next (State.parked
        { s with run := { s.run with
            state := .paused, op := began (.pause s.base.last) .geometryPausing } } p rest)))
    ∧ (code = 9 →
      (∀ c, barred (s.run.state == .paused) = some c →
        exec (.runResume p) s = .next (s.replied p r rest c []))
      ∧ (barred (s.run.state == .paused) = none → exec (.runResume p) s = .next (State.parked
        (State.grant { s with run := { s.run with
            op := began .resume .recordWaiting
            out := s.run.out ++ [.resume ⟨p, s.base.last⟩] } }) p rest)))
    ∧ (code = 10 →
      (∀ c, barred (s.run.state != .idle) = some c →
        exec (.runEnd p) s = .next (s.replied p r rest c []))
      ∧ (barred (s.run.state != .idle) = none → exec (.runEnd p) s = .next (State.parked
        { s with run := { s.run with closing := true, op := began .finish .baseEnding } } p rest)))

/-- FLUSH_FINISHED (R90, R130, R131): once every flushed record has been appended and handed on, the
truncation request goes to the back of the evaluation list, with the cause END for a Run End, then behind
the last point of the run: once every POINT record handed over has been appended (R131, R155; log 24).
TRUNCATION_FINISHED (R152, R153, R155, R157): for a Pause the PAUSE record is handed on; for an End the
mark queue is discarded and counted, the pending correction is 0, and the RUN_END record is handed on
with the counts limited to 65535, once every other record of the run has been appended and every point
evaluated. The model's choices in it: that the step waits for them (log 8), that the points field carries
J without a limit (log 27), that the last point written in the segment is read from the history (log 31),
and that a step not due changes nothing (log 2). -/
def Obligations.FlushAndTruncationFinished : Prop :=
  (∀ (s : State) (o : Operation), s.run.op = some o → o.stage = .flushing →
     (s.geo.flushLeft = some 0 → (o.what = .finish → s.geo.out = []) → exec .flushFinished s = .next
       { s with
         geo := { s.geo with flushLeft := none }
         exc := { s.exc with evalList := s.exc.evalList
           ++ [.truncation (if o.what = .finish then .runEnd else .pause)] }
         run := { s.run with op := some { o with stage := .truncating } } })
     ∧ (s.geo.flushLeft ≠ some 0 ∨ (o.what = .finish ∧ s.geo.out ≠ []) →
       exec .flushFinished s = .next s))
  ∧ (∀ (s : State) (o : Operation) (report : TruncationReport), s.run.op = some o →
       o.stage = .truncating → s.exc.truncation = some report →
       let waiting : RunControl := { s.run with op := some { o with stage := .recordWaiting } }
       let marks : MarkCounts :=
         { s.marking.counts with discarded := s.marking.counts.discarded + s.marking.queue.length }
       let lim (n : Nat) := min 65535 n
       let base : BaseCounts := ⟨s.base.last, lim s.base.fixesApplied, lim s.base.fixesRefused⟩
       let recorded := s.geo.out = [] ∧ s.exc.evalList = [] ∧ s.exc.out = [] ∧ s.marking.out = []
         ∧ s.base.out = []
       (report.left ≠ 0 → exec .truncationFinished s = .next s)
       ∧ (report.left = 0 → ∀ j, o.what = .pause j → exec .truncationFinished s = .next (State.grant
         { s with
           exc := { s.exc with truncation := none }
           run := { waiting with out := s.run.out
             ++ [.pause ⟨o.port, j, s.geo.segmentLast, report.closed⟩] } }))
       ∧ (report.left = 0 → o.what = .finish → ¬ recorded → exec .truncationFinished s = .next s)
       ∧ (report.left = 0 → o.what = .finish → recorded → exec .truncationFinished s = .next (State.grant
         { s with
           exc := { s.exc with truncation := none }
           marking := { s.marking with queue := [], counts := marks }
           base := { s.base with correction := 0 }
           run := { waiting with
             summary := ⟨some s.exc.counts, some marks, some base⟩
             out := s.run.out ++ [.runEnd
               { port := o.port, endedFrom := o.previous, base := base
                 exceedances :=
                   { level1 := lim s.exc.counts.level1, level2 := lim s.exc.counts.level2
                     level3 := lim s.exc.counts.level3, suppressed := lim s.exc.counts.suppressed
                     urgent := lim s.exc.counts.urgent }
                 marks :=
                   { queued := lim marks.queued, fired := lim marks.fired, late := lim marks.late
                     merged := lim marks.merged, dropped := lim marks.dropped
                     discarded := lim marks.discarded } }] } })))

/-- DISTANCE_BASE_RUN_END (R23, R71, R94): the run indicator is cleared, every point-queue entry becomes a
drained sample with every value absent, in order, with the speed of its set, the flags of the two sets that
bracket it and the late flag of the held set where that is the first of them, and the queue is empty. With
no sample left to take an open segment is flushed (R90), and the report is made at once when the segment is
closed, and when its flush is empty; with samples left it is made when the last has been taken (for samples
that stood before the drain, the model's choice, log 24). -/
def Obligations.RunEndDrainsThePointQueue : Prop :=
  ∀ (s : State) (o : Operation), s.run.op = some o → o.stage = .baseEnding →
    let pending := s.geo.window.filter (fun y => !y.written)
    ∃ t, exec .distanceBaseRunEnd s = .next t
      ∧ t = State.grant { s with base := t.base, geo := t.geo, run := t.run }
      ∧ t.base = { s.base with running := false, queue := [] }
      ∧ t.run = { s.run with op := some { o with stage := .flushing } }
      ∧ (∃ drained, t.geo.inbox = s.geo.inbox ++ drained ∧ drained.length = s.base.queue.length
          ∧ ∀ (i : Nat) (e : PointEntry) (x : SpatialSample),
            s.base.queue[i]? = some e → drained[i]? = some x →
            x.point = e.point ∧ x.target = e.target ∧ x.position = e.position
            ∧ x.corrected = e.corrected ∧ x.limited = e.limited
            ∧ x.values = ⟨none, none, none, none, none, none, none, none, none⟩
            ∧ x.absent = ⟨true, true, true, true⟩
            ∧ (∀ own m, s.isSetOf e.strobe own → own.items = some m → x.speed = m.speed)
            ∧ (∀ before own l m, s.isSetOf (e.strobe - 1) before → s.isSetOf e.strobe own →
                before.items = some l → own.items = some m →
                x.flags = ⟨l.flags.disagreement || m.flags.disagreement,
                  l.flags.conflict || m.flags.conflict, l.flags.tachFailed || m.flags.tachFailed,
                  l.flags.overSpeed || m.flags.overSpeed⟩)
            ∧ (∀ h, s.resampler.held = some h → h.strobe = e.strobe - 1 → x.late = h.late)
            ∧ ((∀ h, s.resampler.held = some h → h.strobe ≠ e.strobe - 1) → x.late = false))
      ∧ (s.geo.inbox = [] → s.base.queue = [] → t.geo.segOpen = false ∧ t.geo.endFlush = none
          ∧ (s.geo.segOpen = false → t.geo = { s.geo with flushLeft := some 0, endFlush := none })
          ∧ (s.geo.segOpen = true → ∃ rs, t.geo.out = s.geo.out ++ rs
              ∧ s.flushes s.geo.window s.geo.history t.geo.history rs
              ∧ t.geo.flushLeft = some (if pending = [] then 0 else t.geo.out.length)))
      ∧ (s.geo.inbox ≠ [] ∨ s.base.queue ≠ [] → t.geo = { s.geo with
          inbox := t.geo.inbox, endFlush := some (decide (s.base.queue ≠ [])) })

/-- RUN_OPERATION_COMPLETE (R148, R150, R152, R154, R155, R158): the OK response with its fields goes to
the requesting port, then the RUN_STATE notice is offered to every port, and no operation is in
progress; for an End the run state is IDLE, the closing indicator clear, and a staged LIMITS image
installed. The model's choices in it: that a completion not due changes nothing (log 2), and that the last
point written in the segment is read from the history (log 31). -/
def Obligations.RunOperationCompletes : Prop :=
  ∀ (s : State) (o : Operation), s.run.op = some o →
    (o.stage ≠ .completing → exec .runOperationComplete s = .next s)
    ∧ (o.stage = .completing →
      let result : RunState := match o.what with
        | .start _ _ _ => .running | .resume => .running | .pause _ => .paused | .finish => .idle
      let code : Byte := match o.what with
        | .start _ _ _ => 7 | .pause _ => 8 | .resume => 9 | .finish => 10
      let fields : List Field := match o.what with
        | .start _ _ _ => [natField 2 s.run.number]
        | .pause _ => [natField 4 (s.geo.segmentLast.getD 0)]
        | .resume => []
        | .finish => [natField 2 s.run.number, natField 4 s.base.last]
      let notice : Notice := .runState o.previous result s.run.number o.port
      ∃ t, exec .runOperationComplete s = .next t
        ∧ t = { s with run := t.run, store := t.store, ports := t.ports }
        ∧ (∀ k, t.ports.get k = (if k = o.port
            then ((s.ports.get k).respond code o.tag .ok fields) else s.ports.get k).offer notice)
        ∧ (o.what ≠ .finish → t.run = { s.run with op := none } ∧ t.store = s.store)
        ∧ (o.what = .finish →
            t.run = { s.run with
              op := none, state := .idle, closing := false, summary := ⟨none, none, none⟩ }
            ∧ t.store = { s.store with
              stagedLim := false
              installedLim := if s.store.stagedLim then s.store.committed.limits
                else s.store.installedLim }))

/-! ## The record ring (10) -/

/-- RING_APPEND (R150, R154, R163). The record granted takes the head as its sequence number and the run
number in force, the oldest record leaves a full ring, the head rises by 1, every ACTIVE port is refilled,
and the record leaves its writer, a POINT record for the evaluation list (R89), with one POINT record
fewer before each waiting FIX (R34), and run control's record no longer before one (R150). The writer is
told: the geometry unit and the exceedance unit count one append less before their reports, the exceedance
unit goes on with the evaluation or the truncation in progress (R115, R129; that this step is where it does
is the model's reading, log 34, and what it does there other statements'), and run control goes on with START, RESUME (with which the run state becomes RUNNING), PAUSE or END. Then, and
where a record is handed over while none is granted, the first waiting writer after the one granted last
is granted, and a grant made is kept until its record has been appended. With no record waiting nothing
happens (log 2); the grant is made in the step that hands the record over or appends the one before it
(log 32). -/
def Obligations.AppendPortGrantsInRotation : Prop :=
  (∀ s : State, let next (x : Writer) : Writer := match x with
      | .geometry => .exceedance | .exceedance => .marking | .marking => .base
      | .base => .runControl | .runControl => .geometry
    let w1 := next s.ring.rotation
    (∀ w, s.ring.granted = some w → s.grant = s)
    ∧ (s.ring.granted = none →
        s.grant = { s with ring := { s.ring with granted := s.grant.ring.granted } }
        ∧ ∀ w, s.grant.ring.granted = some w ↔ ∃ before after,
          [w1, next w1, next (next w1), next (next (next w1)), next (next (next (next w1)))]
            = before ++ w :: after ∧ (∀ x ∈ before, s.waiting x = none) ∧ s.waiting w ≠ none))
  ∧ (∀ s : State, s.ring.granted = none → (∀ w, s.waiting w = none) → exec .ringAppend s = .next s)
  ∧ ∀ (s : State) (w : Writer) (b : Record), s.grant.ring.granted = some w → s.waiting w = some b →
    ∃ t : State, exec .ringAppend s = .next t.grant ∧ t.ring.granted = none
      ∧ t.ring.head = s.ring.head + 1 ∧ t.ring.rotation = w
      ∧ (s.ring.contents.length < 8192 → t.ring.oldest = s.ring.oldest
          ∧ t.ring.contents = s.ring.contents ++ [⟨s.ring.head, s.run.number, b⟩])
      ∧ (8192 ≤ s.ring.contents.length → t.ring.oldest = s.ring.oldest + 1
          ∧ t.ring.contents = s.ring.contents.tail ++ [⟨s.ring.head, s.run.number, b⟩])
      ∧ (∀ p, t.ports.get p = if (s.ports.get p).stream = .active
          then (s.ports.get p).refill t.ring else s.ports.get p)
      ∧ t.geo = (if w = .geometry then
          { s.geo with out := s.geo.out.tail, flushLeft := s.geo.flushLeft.map (fun n => n - 1) }
          else s.geo)
      ∧ (w = .exceedance →
          let told : State := { s with exc := { s.exc with
            out := s.exc.out.tail
            truncation := s.exc.truncation.map (fun x => { x with left := x.left - 1 }) } }
          t.exc = told.goOn.exc ∧ t.marking = told.goOn.marking ∧ t.store = told.goOn.store
          ∧ (s.exc.turn = none → told.goOn = told))
      ∧ (w ≠ .exceedance → t.store = s.store
          ∧ t.exc = { s.exc with evalList := if w = .geometry
              then s.exc.evalList ++ (s.geo.out.head?.map EvalItem.point).toList
              else s.exc.evalList })
      ∧ (w = .geometry → ∃ r, b = .point r ∧ t.exc.evalList = s.exc.evalList ++ [.point r])
      ∧ (w ≠ .exceedance → t.marking
          = if w = .marking then { s.marking with out := s.marking.out.tail } else s.marking)
      ∧ t.base = (match w with
          | .base => { s.base with out := s.base.out.tail }
          | .geometry =>
            { s.base with out := s.base.out.map (fun x => { x with behind := x.behind - 1 }) }
          | .runControl => { s.base with out := s.base.out.map (fun x => { x with behindStart := false }) }
          | .exceedance | .marking => s.base)
      ∧ (w ≠ .runControl → t.run = s.run)
      ∧ (w = .runControl → t.run.out = s.run.out.tail ∧ t.run.number = s.run.number
          ∧ t.run.closing = s.run.closing ∧ t.run.summary = s.run.summary
          ∧ ((∀ o, s.run.op = some o → o.stage ≠ .recordWaiting) →
              t.run.op = s.run.op ∧ t.run.state = s.run.state)
          ∧ ∀ o, s.run.op = some o → o.stage = .recordWaiting →
            (∀ position orientation cls, o.what = .start position orientation cls →
              t.run.op = some { o with stage := .starting false false false }
              ∧ t.run.state = s.run.state)
            ∧ (o.what = .resume →
              t.run.op = some { o with stage := .geometryResuming } ∧ t.run.state = .running)
            ∧ ((∃ j, o.what = .pause j) ∨ o.what = .finish →
              t.run.op = some { o with stage := .completing } ∧ t.run.state = s.run.state))
      ∧ t.tach = s.tach ∧ t.lanes = s.lanes ∧ t.pending = s.pending
      ∧ t.time = s.time ∧ t.strobe = s.strobe ∧ t.resampler = s.resampler
      ∧ t.resetPending = s.resetPending

/-- The law of R161 is kept by every step: at most 8192 records, with sequence numbers consecutive from
the oldest number up to the head. So is the order at the append port (R163): the record granted waits, and
while none is granted none waits. So is the law of R85: every channel of a POINT record in the ring, waiting
for it or waiting for its evaluation is absent or lies within ±32767, as do the values kept in the window
that a record takes over. -/
def Obligations.RingStaysConsecutive : Prop :=
  (∀ s t : State, s.RingLaw → step s = .next t → t.RingLaw)
  ∧ (∀ s t : State, s.GrantLaw → step s = .next t → t.GrantLaw)
  ∧ (∀ s t : State, s.ChannelLaw → step s = .next t → t.ChannelLaw)

/-- The places of a sequence number against the ring, and of a cursor with its lost count (R162); and
what an overrun at a cursor leaves (R168): the cursor at the oldest number, with a GAP item at the back of
the transmit queue for an IN_STREAM port, and an OVERRUN notice placed for an IMMEDIATE one. -/
def Obligations.PlacesOfASequenceNumber : Prop :=
  ∀ (r : Ring) (s : Word32),
    let n := (r.head - r.oldest).toNat
    (r.isPresent s = true ↔ (s - r.oldest).toNat < n)
    ∧ (r.isAhead s = true ↔ r.isPresent s = false ∧ 1 ≤ (s - r.head).toNat
        ∧ (s - r.head).toNat ≤ 2 ^ 31 - 1)
    ∧ (r.isGone s = true ↔ r.isPresent s = false ∧ s ≠ r.head ∧ r.isAhead s = false)
    ∧ ((r.isPresent s = true ∧ s ≠ r.head ∧ r.isAhead s = false ∧ r.isGone s = false)
      ∨ (r.isPresent s = false ∧ s = r.head ∧ r.isAhead s = false ∧ r.isGone s = false)
      ∨ (r.isPresent s = false ∧ s ≠ r.head ∧ r.isAhead s = true ∧ r.isGone s = false)
      ∨ (r.isPresent s = false ∧ s ≠ r.head ∧ r.isAhead s = false ∧ r.isGone s = true))
    ∧ (r.isBehind s = true ↔ n < (r.head - s).toNat)
    ∧ (r.isBehind s = true → r.lostCount s = (r.oldest - s).toNat)
    ∧ (r.isBehind s = false → (r.isPresent s = true ∨ s = r.head) ∧ r.lostCount s = 0)
    ∧ (∀ q : PortState, q.cursor = s →
        (q.overrun = .inStream → q.overrunAt r =
          { q with cursor := r.oldest, txQueue := q.txQueue ++ [.gap s (r.lostCount s)] })
        ∧ (q.overrun = .immediate → q.overrunAt r =
          PortState.place { q with cursor := r.oldest } (.notice (.overrun s (r.lostCount s)))))

/-- A refill (R166 to R168). It is made only while the stream is ACTIVE, the queue has a free place and
the cursor is not at the head, and otherwise changes nothing. A cursor that is behind is handled first, as
an overrun. Then, from the cursor on and in ring order, exactly the records that pass the filter and the
decimation are copied to the back of the queue, until the queue is full or the cursor is at the head; the
cursor counts the records examined, and none is examined once the queue is full. -/
def Obligations.RefillCopiesPassingRecords : Prop :=
  (∀ (q : PortState) (r : RingRecord), q.passes r = true ↔ q.filter.getLsbD r.body.kind = true
      ∧ ∀ x, r.body = .point x → x.point % q.decimation = 0)
  ∧ ∀ (q : PortState) (ring : Ring), q.txQueue.length ≤ 3 →
    let q' := q.refillQueue ring
    (q.stream ≠ .active ∨ q.txQueue.length = 3 ∨ q.cursor = ring.head → q' = q)
    ∧ (q.stream = .active → q.txQueue.length < 3 → q.cursor ≠ ring.head →
      let from_ := if ring.isBehind q.cursor = true then q.overrunAt ring else q
      let records := ring.contents.drop (from_.cursor - ring.oldest).toNat
      ∃ n, n ≤ records.length
        ∧ (∀ m, m < n → from_.txQueue.length + ((records.take m).filter q.passes).length < 3)
        ∧ q' = { from_ with
            cursor := from_.cursor + BitVec.ofNat 32 n
            txQueue := from_.txQueue ++ ((records.take n).filter q.passes).map .record }
        ∧ q'.txQueue.length ≤ 3
        ∧ (q'.txQueue.length = 3 ∨ n = records.length)
        ∧ (ringOk ring → q'.txQueue.length = 3 ∨ q'.cursor = ring.head))

/-- Stream Start (R169, R191), in every outcome: STREAM_ACTIVE, INVALID_FIELD, NOT_YET and GONE leave
the stream as it was; accepted, the filter, the decimation and the stream's tag are installed and the
stream is ACTIVE, with the first refill made from the cursor of the starting choice. -/
def Obligations.StreamStartOutcomes : Prop :=
  ∀ (s : State) (p : Port) (tag : Word16) (filter : Word16) (d choice : Byte) (n : Word32)
      (rest : List Request),
    let r : Request := ⟨14, tag, leNat 2 filter.toNat ++ [d, choice] ++ leNat 4 n.toNat⟩
    s.canDispatch p r rest →
    let q := s.ports.get p
    let refused (c : Completion) (fs : List Field) := s.replied p r rest c fs
    (q.stream ≠ .none → exec (.streamStart p) s = .next (refused .streamActive []))
    ∧ (q.stream = .none →
      (d = 0 ∨ 64 < d.toNat → exec (.streamStart p) s = .next (refused .invalidField [natField 2 1]))
      ∧ (1 ≤ d.toNat → d.toNat ≤ 64 → 3 < choice.toNat →
        exec (.streamStart p) s = .next (refused .invalidField [natField 2 2]))
      ∧ (1 ≤ d.toNat → d.toNat ≤ 64 → choice = 2 → s.ring.isAhead n = true →
        exec (.streamStart p) s = .next (refused .notYet []))
      ∧ (1 ≤ d.toNat → d.toNat ≤ 64 → choice = 2 → s.ring.isGone n = true →
        exec (.streamStart p) s = .next (refused .gone []))
      ∧ (1 ≤ d.toNat → d.toNat ≤ 64 → choice.toNat ≤ 3 →
        (choice = 2 → s.ring.isAhead n = false ∧ s.ring.isGone n = false) →
        let cursor : Word32 :=
          if choice = 0 then s.ring.oldest
          else if choice = 1 then (if s.ring.contents = [] then s.ring.head else s.ring.head - 1)
          else if choice = 2 then n
          else q.cursor
        let q1 : PortState := { q with
          filter := filter, decimation := d.toNat, streamTag := tag, cursor := cursor }
        let q2 := if choice = 3 ∧ s.ring.isBehind cursor = true then q1.overrunAt s.ring else q1
        let q3 := { q2 with stream := .active, requests := q2.requests.tail }.respond 14 tag .ok []
        exec (.streamStart p) s = .next { s with ports := s.ports.set p (q3.refill s.ring) }))

/-- Stream Pause, Stream Resume and Stream Stop (R170, R191 to R193), in every state of the stream. A Pause
waits for the drain with items still queued, and with none is answered at once. A pending Pause is
answered before a Resume or a Stop. A Resume makes the stream ACTIVE and refills it after its response;
a Stop makes it NONE, keeps an item in transmission, and sets the cursor back to the first item removed. -/
def Obligations.StreamPauseResumeStopOutcomes : Prop :=
  (∀ (s : State) (p : Port) (tag : Word16) (rest : List Request),
     let r : Request := ⟨15, tag, []⟩
     s.canDispatch p r rest →
     let q := s.ports.get p
     let q1 : PortState := { q with requests := rest, stream := .pausing, pendingPause := some tag }
     (q.stream = .none → exec (.streamPause p) s = .next (s.replied p r rest .noStream []))
     ∧ (q.stream = .pausing ∨ q.stream = .paused →
         exec (.streamPause p) s = .next (s.replied p r rest .wrongState []))
     ∧ (q.stream = .active → q.txQueue ≠ [] →
         exec (.streamPause p) s = .next { s with ports := s.ports.set p q1 })
     ∧ (q.stream = .active → q.txQueue = [] →
         let q2 := { q1 with stream := .paused, pendingPause := none }.respond 15 tag .ok []
         exec (.streamPause p) s = .next { s with ports := s.ports.set p q2 }))
  ∧ (∀ (s : State) (p : Port) (tag : Word16) (rest : List Request),
       let q := s.ports.get p
       let answered : PortState := match q.pendingPause with
         | none => q
         | some t => { q with pendingPause := none }.respond 15 t .ok []
       (s.canDispatch p ⟨16, tag, []⟩ rest →
         (q.stream = .none →
           exec (.streamResume p) s = .next (s.replied p ⟨16, tag, []⟩ rest .noStream []))
         ∧ (q.stream = .active →
           exec (.streamResume p) s = .next (s.replied p ⟨16, tag, []⟩ rest .wrongState []))
         ∧ (q.stream = .paused ∨ q.stream = .pausing →
           let q1 := if q.stream = .pausing then answered else q
           let q2 := { q1 with stream := .active, requests := q1.requests.tail }.respond 16 tag .ok []
           exec (.streamResume p) s = .next { s with ports := s.ports.set p (q2.refill s.ring) }))
       ∧ (s.canDispatch p ⟨17, tag, []⟩ rest →
         (q.stream = .none →
           exec (.streamStop p) s = .next (s.replied p ⟨17, tag, []⟩ rest .noStream []))
         ∧ (q.stream ≠ .none →
           let kept := if answered.sendsStream = true then 1 else 0
           let q1 : PortState := { answered with
             stream := .none, txQueue := q.txQueue.take kept
             cursor := match q.txQueue.drop kept with
               | [] => q.cursor
               | .record x :: _ => x.sequence
               | .gap first _ :: _ => first }
           let q2 := { q1 with requests := q1.requests.tail }.respond 17 tag .ok []
           exec (.streamStop p) s = .next { s with ports := s.ports.set p q2 })))

/-- Read Records (R171), in every outcome; accepted, the read list is min(count, head − s) records from
s in ring order, its first frame is placed, and cursor, filter and transmit queue are not touched. -/
def Obligations.ReadRecordsOutcomes : Prop :=
  ∀ (s : State) (p : Port) (tag : Word16) (n : Word32) (count : Word16) (rest : List Request),
    let r : Request := ⟨18, tag, leNat 4 n.toNat ++ leNat 2 count.toNat⟩
    s.canDispatch p r rest →
    let refused (c : Completion) (fs : List Field) := s.replied p r rest c fs
    let q := s.ports.get p
    let wanted := if count = 0 then 256 else count.toNat
    let list := (s.ring.contents.drop (n - s.ring.oldest).toNat).take wanted
    (256 < count.toNat → exec (.readRecords p) s = .next (refused .invalidField [natField 2 1]))
    ∧ (count.toNat ≤ 256 → s.ring.isPresent n = false → s.ring.isGone n = false →
        exec (.readRecords p) s = .next (refused .notYet []))
    ∧ (count.toNat ≤ 256 → s.ring.isGone n = true →
        exec (.readRecords p) s = .next (refused .gone []))
    ∧ (count.toNat ≤ 256 → s.ring.isPresent n = true → s.RingLaw →
        list.length = min wanted (s.ring.head - n).toNat
        ∧ (∀ i x, list[i]? = some x → x.sequence = n + BitVec.ofNat 32 i)
        ∧ ∃ t, exec (.readRecords p) s = .next t ∧ t = { s with ports := t.ports }
          ∧ (∀ k, k ≠ p → t.ports.get k = s.ports.get k)
          ∧ (t.ports.get p).cursor = q.cursor
          ∧ (t.ports.get p).filter = q.filter
          ∧ (t.ports.get p).txQueue = q.txQueue
          ∧ (t.ports.get p).stream = q.stream
          ∧ (∀ x, list = [x] → t.ports.get p = PortState.kick
              { q with
                requests := rest
                replies := q.replies ++ [.readRecord tag x true,
                  .response ⟨18, tag, .ok, [natField 2 1]⟩] })
          ∧ (∀ x y ys, list = x :: y :: ys → t.ports.get p = PortState.kick
              { q with
                readJob := some ⟨tag, y :: ys, list.length⟩
                replies := q.replies ++ [.readRecord tag x false] }))

/-! ## Shared settings (11) -/

/-- Read Settings (R177): a section number outside 0..5 is refused and the reservation kept; otherwise the
response carries section, generation, committed image and staged indicator, and the port's reservation
is that section and generation. Await Change (R183): refused, answered at once, or parked without a
response. -/
def Obligations.ReadSettingsAndAwaitChange : Prop :=
  (∀ (s : State) (p : Port) (tag : Word16) (n : Byte) (rest : List Request),
     let r : Request := ⟨3, tag, [n]⟩
     s.canDispatch p r rest →
     (5 < n.toNat → exec (.readSettings p) s
       = .next (s.replied p r rest .invalidField [natField 2 0]))
     ∧ ∀ c : Section, n.toNat = c.code → exec (.readSettings p) s = .next
         (State.replied (s.modPort p (fun q =>
             { q with reservation := some ⟨c, s.store.generations.get c⟩ })) p r rest .ok
           ([natField 1 c.code, natField 4 (s.store.generations.get c).toNat]
             ++ s.store.committed.fields c
             ++ [flagField (match c with
               | .calibration => s.store.stagedCal
               | .limits => s.store.stagedLim
               | _ => false)])))
  ∧ (∀ (s : State) (p : Port) (tag : Word16) (n : Byte) (g : Word32) (rest : List Request),
       let r : Request := ⟨5, tag, n :: leNat 4 g.toNat⟩
       s.canDispatch p r rest →
       (5 < n.toNat → exec (.awaitChange p) s
         = .next (s.replied p r rest .invalidField [natField 2 0]))
       ∧ ∀ c : Section, n.toNat = c.code →
         ((s.ports.get p).await ≠ none →
           exec (.awaitChange p) s = .next (s.replied p r rest .wrongState []))
         ∧ ((s.ports.get p).await = none → s.store.generations.get c ≠ g →
           exec (.awaitChange p) s = .next (s.replied p r rest .ok
             [natField 1 c.code, natField 4 (s.store.generations.get c).toNat]))
         ∧ ((s.ports.get p).await = none → s.store.generations.get c = g →
           let q : PortState := { s.ports.get p with requests := rest, await := some ⟨c, g, tag⟩ }
           exec (.awaitChange p) s = .next { s with ports := s.ports.set p q }))

/-- Commit Settings (R100, R176, R179, R190): the checks in their order, each refusal without any other
effect; and the first bad field, the lowest index at which a field is out of its range, or, for LIMITS,
at which a threshold or a parameter fails a check of R100. -/
def Obligations.CommitRefusals : Prop :=
  ∀ (s : State) (p : Port) (tag : Word16) (body : List Byte) (rest : List Request),
    let r : Request := ⟨4, tag, body⟩
    s.canDispatch p r rest →
    let refused (c : Completion) (fs : List Field) :=
      exec (.commitSettings p) s = .next (s.replied p r rest c fs)
    (body = [] → refused .badLength [])
    ∧ ∀ n image, body = n :: image →
      (5 < n.toNat → refused .invalidField [natField 2 0])
      ∧ ∀ c : Section, n.toNat = c.code →
        let v := decodeSlots (sectionLayout c) image
        let permitted := (s.access p).commit.get c = true
        let held := (s.ports.get p).reservation = some ⟨c, s.store.generations.get c⟩
        let free := (c = .sampling ∨ c = .odometry) → s.run.state = .idle
        let unstaged := (c = .calibration → s.store.stagedCal = false)
          ∧ (c = .limits → s.store.stagedLim = false)
        (image.length ≠ imageLength c → refused .badLength [])
        ∧ (image.length = imageLength c →
          (¬ permitted → refused .notPermitted [])
          ∧ (permitted → ¬ held → refused .lostReservation [])
          ∧ (permitted → held → ¬ free → refused .runActive [])
          ∧ (permitted → held → free → ¬ unstaged → refused .applyPending [])
          ∧ (permitted → held → free → unstaged → ∀ i, firstBadField c v = some i →
            refused .invalidField [natField 2 i])
          ∧ (permitted → held → unstaged → c = .access →
            (∀ k, holdsAccess (accessOf v) k = false) → refused .accessLockout [])
          ∧ (c ≠ .limits →
            (firstBadField c v = none ↔ ∀ i x, v[i]? = some x → fieldOk c i x)
            ∧ ∀ k, firstBadField c v = some k ↔ (∃ x, v[k]? = some x ∧ ¬ fieldOk c k x)
              ∧ ∀ i x, i < k → v[i]? = some x → fieldOk c i x)
          ∧ (c = .limits →
            (firstBadField c v = none ↔ ∀ i, ¬ badLimit (limitsOf v) i)
            ∧ ∀ k, firstBadField c v = some k ↔ badLimit (limitsOf v) k
              ∧ ∀ i, i < k → ¬ badLimit (limitsOf v) i))

/-- Commit Settings that passes every check (R175, R178, R180, R181, R183): the generation rises by exactly
1, every reservation on the section is dropped, the image is committed and installed or staged, every parked
Await on the section is answered, and the OK response is placed after them. A CALIBRATION image installed
while the run is not active changes the lanes whose mode it changes (R56), with the LANE_STATE notices of
the changes (R57; SL0's first, the model's order, log 5), takes the lanes that become OFF from the awaited
lanes of the OPEN sets, and closes the sets that are then complete, in their order (the model's, log 22),
releasing what is ready (R62, R64, R65); the Awaits and the request are answered after that. A SAMPLING
image with another rate makes the speed window restart at the next strobe (R17, R43). A MARKING image that
disables marking discards every queued mark, counted; with any other, and with marking disabled before, the
marking unit is unchanged (R144). -/
def Obligations.CommitSucceeds : Prop :=
  ∀ (s : State) (p : Port) (tag : Word16) (n : Byte) (image : List Byte) (c : Section)
      (rest : List Request),
    let r : Request := ⟨4, tag, n :: image⟩
    s.canDispatch p r rest → n.toNat = c.code → image.length = imageLength c →
    let v := decodeSlots (sectionLayout c) image
    s.commitRefusal p c v = none →
    let active := s.run.state ≠ .idle
    let fields := [natField 1 c.code, natField 4 (s.store.generations.get c + 1).toNat]
    let dropped (k : Port) : PortState := (s.ports.get k).dropReservation c
    let answered (q : PortState) (k : Port) : PortState :=
      let q1 := match q.await with
        | some a => if a.sec = c then { q with await := none }.respond 5 a.tag .ok fields else q
        | none => q
      if k = p then { q1 with requests := q1.requests.tail }.respond 4 tag .ok fields else q1
    ∃ t, exec (.commitSettings p) s = .next t
      ∧ t.store.generations = s.store.generations.set c (s.store.generations.get c + 1)
      ∧ t.store.committed = s.store.committed.replace c v
      ∧ (c ≠ .calibration → t.store.installedCal = s.store.installedCal
          ∧ t.store.stagedCal = s.store.stagedCal)
      ∧ (c = .calibration → active → t.store.installedCal = s.store.installedCal
          ∧ t.store.stagedCal = true)
      ∧ (c = .calibration → ¬ active → t.store.installedCal = calibrationOf v
          ∧ t.store.stagedCal = false)
      ∧ (c ≠ .limits → t.store.installedLim = s.store.installedLim
          ∧ t.store.stagedLim = s.store.stagedLim)
      ∧ (c = .limits → active → t.store.installedLim = s.store.installedLim
          ∧ t.store.stagedLim = true)
      ∧ (c = .limits → ¬ active → t.store.installedLim = limitsOf v ∧ t.store.stagedLim = false)
      ∧ (c = .marking → (markingOf v).enable = false → s.store.committed.marking.enable = true →
          t.marking = { s.marking with
            queue := []
            counts := { s.marking.counts with
              discarded := s.marking.counts.discarded + s.marking.queue.length } })
      ∧ (c ≠ .marking ∨ (markingOf v).enable = true ∨ s.store.committed.marking.enable = false →
          t.marking = s.marking)
      ∧ (∀ k x, (t.ports.get k).reservation = some x ↔
          (s.ports.get k).reservation = some x ∧ x.sec ≠ c)
      ∧ (∀ k x, (t.ports.get k).await = some x ↔ (s.ports.get k).await = some x ∧ x.sec ≠ c)
      ∧ (c ≠ .calibration ∨ active → (∀ k, t.ports.get k = answered (dropped k) k)
          ∧ t.lanes = s.lanes ∧ t.resampler = s.resampler ∧ t.base = s.base ∧ t.geo = s.geo)
      ∧ (c = .calibration → ¬ active →
          let image := calibrationOf v
          ∃ y z, State.installs
              { s with
                store := { t.store with installedCal := s.store.installedCal }
                ports := ⟨dropped .p0, dropped .p1, dropped .p2⟩ } y image
            ∧ State.closesEach (State.formsSet image) y.completeSets y z
            ∧ t = { z with ports := t.ports }
            ∧ ∀ k, t.ports.get k = answered (z.ports.get k) k)
      ∧ t.tach = (if c = .sampling ∧ (samplingOf v).rate ≠ s.store.committed.sampling.rate
          then { s.tach with rateChanged := true } else s.tach)
      ∧ t.run = s.run ∧ t.ring = s.ring ∧ t.exc = s.exc ∧ t.strobe = s.strobe ∧ t.time = s.time
      ∧ t.pending = s.pending ∧ t.resetPending = s.resetPending

/-- The laws of R178 and R182 are kept by every step: every reservation held names its section's
current generation, and at least one port holds commit permission for the ACCESS section. -/
def Obligations.ReservationsAndAccessStayGood : Prop :=
  ∀ s t : State, step s = .next t →
    (s.ReservationLaw → t.ReservationLaw) ∧ (s.AccessLaw → t.AccessLaw)

/-- What a station commits is what Read Settings returns (R176, R177, 13.6): the bytes of a valid image
are those of the committed image's fields. -/
def Obligations.CommittedImageReadsBack : Prop :=
  ∀ (i : Images) (c : Section) (bytes : List Byte), bytes.length = imageLength c →
    let v := decodeSlots (sectionLayout c) bytes
    firstBadField c v = none → fieldBytes ((i.replace c v).fields c) = bytes

/-! ## Survey links (12, 13) -/

/-- LINK_FRAME (R186, R188, R189, R194): the four checks in their order with the counter each raises; a
good frame makes the link UP and is queued, or answered with BUSY when the queue holds 4 and the reply
queue fewer than 16 items, or discarded. -/
def Obligations.LinkFrameOutcomes : Prop :=
  ∀ (s : State) (p : Port) (bytes : List Byte),
    let q := s.ports.get p
    let n := ofLe ((bytes.drop 5).take 2)
    let synced := bytes.head? = some 0xC5
    let fits := n ≤ 1024 ∧ bytes.length = n + 9
    let sound := (crc16 ((bytes.drop 1).take (n + 6))).toNat = ofLe (bytes.drop (n + 7))
    let request := bytes.getD 1 0 = 1
    let becomes (q' : PortState) :=
      exec (.linkFrame p bytes) s = .next { s with ports := s.ports.set p q' }
    (¬ synced → becomes { q with framing := satInc 65535 q.framing })
    ∧ (synced → ¬ fits → becomes { q with framing := satInc 65535 q.framing })
    ∧ (synced → fits → ¬ sound → becomes { q with crc := satInc 65535 q.crc })
    ∧ (synced → fits → sound → ¬ request → becomes { q with framing := satInc 65535 q.framing })
    ∧ (synced → fits → sound → request →
      let r : Request := ⟨bytes.getD 2 0, BitVec.ofNat 16 (ofLe ((bytes.drop 3).take 2)),
        (bytes.drop 7).take n⟩
      let up : PortState := { q with link := .up }
      (q.requests.length < 4 → becomes { up with requests := q.requests ++ [r] })
      ∧ (4 ≤ q.requests.length → q.replies.length < 16 → becomes (up.respond r.code r.tag .busy []))
      ∧ (4 ≤ q.requests.length → 16 ≤ q.replies.length → becomes up))

/-- What 13.2 lays out is what the checks read: a request frame decodes to its code, tag and body, and a
lane frame of each kind to its sequence, status and payload. -/
def Obligations.FramesDecodeAsLaidOut : Prop :=
  (∀ (code : Byte) (tag : Word16) (body : List Byte), body.length ≤ 1024 →
    checkLinkFrame (linkFrameBytes 1 code.toNat tag body) = .good ⟨code, tag, body⟩)
  ∧ ∀ (q status : Byte) (d v zL zR w phi : Int),
    (-32768 ≤ d ∧ d ≤ 32767) → (-32768 ≤ v ∧ v ≤ 32767) →
    (∀ x, x = zL ∨ x = zR ∨ x = w ∨ x = phi → -2147483648 ≤ x ∧ x ≤ 2147483647) →
    let frame (kind : Byte) (payload : List Byte) : List Byte :=
      let inner := [kind, q, status] ++ payload
      inner ++ leNat 2 (crc16 inner).toNat
    checkLaneFrame .sl0 (frame 1 (leInt 2 d ++ leInt 2 v)) = .wellFormed q ⟨status, .head d v⟩
    ∧ checkLaneFrame .sl1 (frame 2 (leInt 2 d ++ leInt 2 v)) = .wellFormed q ⟨status, .head d v⟩
    ∧ checkLaneFrame .sl2 (frame 3 (leInt 4 zL ++ leInt 4 zR ++ leInt 4 w ++ leInt 4 phi))
        = .wellFormed q ⟨status, .inertial zL zR w phi⟩
    ∧ checkLaneFrame .sl3 (frame 4 (leInt 2 d)) = .wellFormed q ⟨status, .aux d⟩
    ∧ checkLaneFrame .sl0 (frame 4 (leInt 2 d)) = .wrongKind

/-- LOSS_OF_SIGNAL (R170, R173, R186, R187): on a DOWN link nothing happens; an UP link becomes DOWN and
loses its queues, its stream, its read list, a pending Pause, the parked Await and the reservation; the
cursor is set back to the first undelivered item; everything else of the port and every other port is
kept. -/
def Obligations.LossOfSignalOutcomes : Prop :=
  ∀ (s : State) (p : Port),
    let q := s.ports.get p
    let lost : PortState :=
      { q with
        link := .down, requests := [], replies := [], tx := none, stream := .none, txQueue := []
        readJob := none, pendingPause := none, await := none, reservation := none
        cursor := match q.txQueue with
          | [] => q.cursor
          | .record x :: _ => x.sequence
          | .gap first _ :: _ => first }
    (q.link = .down → exec (.lossOfSignal p) s = .next s)
    ∧ (q.link = .up → s.resetPending ≠ some p →
      exec (.lossOfSignal p) s = .next { s with ports := s.ports.set p lost })

/-- TRANSMIT_FRAME_END (R165, R167, R192, R194): a reply sent gives way to the front of the reply queue,
else to the front of the transmit queue; a stream item sent leaves the transmit queue, an ACTIVE stream
is refilled, a drained Pause is answered, and then the next frame is taken in the same way. With a record
frame of a Read Records taken, the next of its read list is placed, and after the last its OK (R171; log
11). The model's choices in it: with nothing in transmission nothing happens (log 2), and a reply leaves
its queue when it is taken (log 10). The OK response of a Reset Part is another statement's. -/
def Obligations.TransmitFrameEndOutcomes : Prop :=
  ∀ (s : State) (p : Port),
    let q := s.ports.get p
    let becomes (q' : PortState) :=
      exec (.transmitFrameEnd p) s = .next { s with ports := s.ports.set p q' }
    (q.tx = none → exec (.transmitFrameEnd p) s = .next s)
    ∧ (∀ i frame, q.tx = some ⟨.reply i, frame⟩ → (s.resetPending = some p → i.isResetOk = false) →
      (∀ j rest, q.replies = j :: rest →
        let taken : PortState := { q with replies := rest, tx := some ⟨.reply j, j.frame⟩ }
        (j.hasMore = false → becomes taken)
        ∧ (j.hasMore = true →
          (∀ tag r n, q.readJob = some ⟨tag, [r], n⟩ → becomes { taken with
            replies := rest ++ [.readRecord tag r true, .response ⟨18, tag, .ok, [natField 2 n]⟩]
            requests := q.requests.tail
            readJob := none })
          ∧ (∀ tag r x xs n, q.readJob = some ⟨tag, r :: x :: xs, n⟩ → becomes { taken with
            replies := rest ++ [.readRecord tag r false]
            readJob := some ⟨tag, x :: xs, n⟩ })))
      ∧ (q.replies = [] → ∀ x rest, q.txQueue = x :: rest →
        becomes { q with tx := some ⟨.stream x, x.frame q.streamTag⟩ })
      ∧ (q.replies = [] → q.txQueue = [] → becomes { q with tx := none }))
    ∧ (∀ x frame, q.tx = some ⟨.stream x, frame⟩ →
      let sent : PortState := { q with tx := none, txQueue := q.txQueue.tail }
      (q.stream = .active → becomes (sent.refillQueue s.ring).kick)
      ∧ (q.stream = .none ∨ q.stream = .paused → becomes sent.kick)
      ∧ (q.stream = .pausing → q.txQueue.tail ≠ [] → becomes sent.kick)
      ∧ (q.stream = .pausing → q.txQueue.tail = [] → ∀ tag, q.pendingPause = some tag →
        becomes ({ sent with stream := .paused, pendingPause := none }.respond 15 tag .ok []).kick))

/-- What placing an item does at a port (R187, R194), and which notices are placed (R195): nothing on a
DOWN link; behind the items before it while a frame is being sent; at once in transmission at a free
port; a maskable notice only where its kind is enabled and the reply queue holds fewer than 16 items,
and counted where it is discarded for lack of room. -/
def Obligations.PlacingAndNotices : Prop :=
  ∀ (q : PortState) (i : ReplyItem),
    (q.link = .down → q.place i = q)
    ∧ (q.link = .up → q.tx ≠ none → q.place i = { q with replies := q.replies ++ [i] })
    ∧ (q.link = .up → q.tx = none → q.replies = [] → i.hasMore = false →
        q.place i = { q with tx := some ⟨.reply i, i.frame⟩ })
    ∧ ∀ (a b : RunState) (n : Nat) (k : Port) (l : Lane) (c d : LaneCondition) (x : TachId)
        (g h : Health),
      (∀ m, m = Notice.runState a b n k ∧ q.mask.runState = false
          ∨ m = Notice.laneState l c d ∧ q.mask.laneState = false
          ∨ m = Notice.tachState x g h ∧ q.mask.tachState = false → q.offer m = q)
      ∧ (∀ m, m = Notice.runState a b n k ∧ q.mask.runState = true
          ∨ m = Notice.laneState l c d ∧ q.mask.laneState = true
          ∨ m = Notice.tachState x g h ∧ q.mask.tachState = true → q.link = .up →
          (q.replies.length < 16 → q.offer m = q.place (.notice m))
          ∧ (16 ≤ q.replies.length →
              q.offer m = { q with discarded := satInc 65535 q.discarded }))

/-- Decoding at dispatch (R190): a code that names no request is answered with UNKNOWN_REQUEST, and a
body of another length than the request needs with BAD_LENGTH; that UNKNOWN_REQUEST does nothing at a
code that names a request is the model's choice (log 2). -/
def Obligations.RequestsDecodedAtDispatch : Prop :=
  (∀ (s : State) (p : Port) (r : Request) (rest : List Request), s.canDispatch p r rest →
    (r.code = 0 ∨ 22 < r.code.toNat →
      exec (.unknownRequest p) s = .next (s.replied p r rest .unknownRequest []))
    ∧ (1 ≤ r.code.toNat → r.code.toNat ≤ 22 → exec (.unknownRequest p) s = .next s))
  ∧ ∀ (s : State) (p : Port) (r : Request) (rest : List Request) (c : Instr) (code n : Nat),
    s.canDispatch p r rest → (c, code, n) ∈ fixedRequests p → r.code.toNat = code →
    r.body.length ≠ n → exec c s = .next (s.replied p r rest .badLength [])

/-- Identify, Read Status and Set Port Options (R195 to R197): Identify and Read Status answer OK with the
body of 13.7, and change nothing else. Identify's revision, serial number, calibration date and mask are
constants of the part (log 12). Read Status carries the values of R20, R40, R58, R73, R96, R111, R135, R146,
R159, R172, R184 and R197, in that order, in 277 + 12 × n bytes with its completion code for n OPEN
trackers; it takes every block's values at one moment, where R197 lets them stand on either side of an event
(the model's choice, log 28), the run travel is that of the latest strobe taken (log 7), and the sample rate
is the committed one, also while the period of an older rate runs (the model's choice, log 35). Set Port
Options installs the mode and the mask, or refuses a mode outside the two. -/
def Obligations.PortRequests : Prop :=
  ∀ (s : State) (p : Port) (tag : Word16) (rest : List Request),
    (s.canDispatch p ⟨1, tag, []⟩ rest → ∃ fields, exec (.identify p) s
        = .next (s.replied p ⟨1, tag, []⟩ rest .ok fields)
      ∧ fieldSize fields = 33
      ∧ fields = [natField 2 740, natField 1 Config.revision.toNat, natField 2 8192, natField 1 4,
          natField 1 3, natField 1 16, natField 1 16, natField 1 8, natField 2 1000, natField 2 2000,
          natField 2 4000, natField 2 100, natField 2 200, natField 2 250, natField 2 500,
          natField 1 ((if Config.serialValid then 1 else 0) + (if Config.calibrationValid then 2 else 0)),
          natField 4 Config.serialNumber.toNat, natField 2 Config.calibrationYear.toNat,
          natField 1 Config.calibrationMonth.toNat, natField 1 Config.calibrationDay.toNat])
    ∧ (s.canDispatch p ⟨2, tag, []⟩ rest →
      let q := s.ports.get p
      let bit (n : Nat) (b : Bool) : Nat := if b then 2 ^ n else 0
      let tach (u : Tach) : List Field :=
        [natField 1 u.health.code, ⟨8, u.pulses⟩, natField 8 u.silent, natField 2 u.recovery,
          natField 2 u.glitches]
      let lane (r : LaneReceiver) : List Field := [natField 1 r.state.code, flagField r.live]
      let sticky (n : Nat) (r : LaneReceiver) : Nat := bit n (r.sticky.get p)
      let ls := s.lanes.lane
      let sam := s.store.committed.sampling
      let e := s.exc
      let m := s.marking
      let lim (n : Nat) : Field := natField 2 (min 65535 n)
      let st := s.store
      let own := s.access p
      ∃ fields, exec (.readStatus p) s = .next (s.replied p ⟨2, tag, []⟩ rest .ok fields)
      ∧ fields =
        [natField 1 (bit 0 s.resampler.held.isSome + bit 1 q.reservation.isSome + bit 2 q.await.isSome)]
        ++ (tach s.tach.units.a ++ tach s.tach.units.b
          ++ [natField 2 s.tach.disagreements, natField 2 s.tach.conflicts, ⟨8, s.tach.net⟩,
            natField 2 s.tach.speed])
        ++ [⟨8, s.base.net - s.base.n0⟩, ⟨8, s.base.high⟩, natField 4 s.base.last,
          natField 1 s.base.queue.length, ⟨8, s.base.offset⟩, natField 1 s.base.orientation.code,
          ⟨8, s.base.correction⟩, natField 2 s.base.fixesApplied, natField 2 s.base.fixesRefused]
        ++ ([natField 4 s.strobe.number.toNat, natField 2 sam.rate]
          ++ lane ls.sl0 ++ lane ls.sl1 ++ lane ls.sl2 ++ lane ls.sl3
          ++ [natField 1 (sticky 0 ls.sl0 + sticky 1 ls.sl1 + sticky 2 ls.sl2 + sticky 3 ls.sl3)])
        ++ [natField 4 ((s.resampler.held.map (fun x => x.strobe.toNat)).getD 0),
          natField 1 s.lanes.sets.length]
        ++ [natField 1 s.geo.pendingCount, natField 4 (s.geo.segStart.getD 0), flagField s.geo.segOpen,
          natField 4 (s.geo.lastWritten.getD 0), natField 1 (max sam.halfV sam.halfA)]
        ++ [natField 1 e.cls, natField 1 e.classQueue.length,
          natField 4 ((e.classQueue.head?.map ClassEntry.effective).getD 0), flagField st.stagedLim,
          natField 4 e.evaluated]
        ++ ([natField 4 e.number, natField 2 e.counts.level1, natField 2 e.counts.level2,
          natField 2 e.counts.level3, natField 2 e.counts.suppressed, natField 2 e.counts.urgent,
          natField 2 e.evalList.length, natField 1 (e.trackers.filter Option.isSome).length]
          ++ (List.range e.trackers.length).flatMap (fun i => match e.trackers[i]? with
            | some (some g) => [natField 1 (i / 2), natField 1 (i % 2), natField 1 g.level,
                natField 4 g.startPoint, natField 4 g.endPoint, flagField g.urgent]
            | _ => []))
        ++ [flagField st.committed.marking.enable, natField 1 m.queue.length,
          ⟨8, (m.queue.head?.map MarkEntry.target).getD 0⟩,
          natField 4 ((m.queue.head?.map MarkEntry.point).getD 0), ⟨8, m.rm⟩, flagField m.line.isSome,
          lim m.counts.queued, lim m.counts.fired, lim m.counts.late, lim m.counts.merged,
          lim m.counts.dropped, lim m.counts.discarded]
        ++ [natField 1 s.run.state.code, natField 2 s.run.number,
          natField 1 (match s.run.op with
            | none => 0
            | some o => match o.what with
              | .start _ _ _ => 1 | .pause _ => 2 | .resume => 3 | .finish => 4),
          natField 1 (match s.run.op with | none => 0 | some o => portCode o.port),
          flagField s.run.closing]
        ++ [natField 4 s.ring.head.toNat, natField 4 s.ring.oldest.toNat,
          natField 2 (s.ring.head - s.ring.oldest).toNat, natField 4 q.cursor.toNat,
          natField 1 q.txQueue.length, natField 2 q.filter.toNat, natField 1 q.decimation,
          natField 1 q.overrun.code]
        ++ ([natField 4 st.generations.access.toNat, natField 4 st.generations.calibration.toNat,
          natField 4 st.generations.sampling.toNat, natField 4 st.generations.odometry.toNat,
          natField 4 st.generations.limits.toNat, natField 4 st.generations.marking.toNat,
          natField 1 (bit 0 st.stagedCal + bit 1 st.stagedLim),
          natField 1 (match q.reservation with | none => 0 | some x => x.sec.code),
          natField 4 (match q.reservation with | none => 0 | some x => x.generation.toNat),
          natField 1 (match q.await with | none => 0 | some x => x.sec.code),
          natField 4 (match q.await with | none => 0 | some x => x.generation.toNat)]
          ++ [flagField own.commit.access, flagField own.commit.calibration, flagField own.commit.sampling,
          flagField own.commit.odometry, flagField own.commit.limits, flagField own.commit.marking,
          flagField own.rawRead, flagField own.reset, flagField own.runControl, flagField own.position])
        ++ [natField 1 s.ports.p0.link.code, natField 1 s.ports.p1.link.code,
          natField 1 s.ports.p2.link.code, natField 2 q.framing, natField 2 q.crc, natField 2 q.discarded,
          natField 1 q.requests.length, natField 1 q.stream.code, flagField q.pendingPause.isSome,
          natField 1 (bit 0 q.mask.runState + bit 1 q.mask.laneState + bit 2 q.mask.tachState)]
      ∧ 1 + fieldSize fields = 277 + 12 * (s.exc.trackers.filter Option.isSome).length)
    ∧ ∀ mode mask : Byte, s.canDispatch p ⟨6, tag, [mode, mask]⟩ rest →
      (1 < mode.toNat → exec (.setPortOptions p) s
        = .next (s.replied p ⟨6, tag, [mode, mask]⟩ rest .invalidField [natField 2 0]))
      ∧ (mode.toNat ≤ 1 → exec (.setPortOptions p) s = .next (State.replied
          (s.modPort p (fun q => { q with
            overrun := if mode = 0 then .inStream else .immediate
            mask := ⟨mask.getLsbD 0, mask.getLsbD 1, mask.getLsbD 2⟩ }))
          p ⟨6, tag, [mode, mask]⟩ rest .ok []))

/-- The bounds of the ports' queues, and what a DOWN link leaves, are kept by every step (R165, R187,
R189). -/
def Obligations.PortQueuesStayBounded : Prop :=
  ∀ s t : State, step s = .next t → (s.QueueLaw → t.QueueLaw) ∧ (s.DownLaw → t.DownLaw)
end

