-- ==== Sys2Proof/Laws/State.lean ====
section
/-! SUPPORT. One lemma for each field and each shared update of the state, true by unfolding the update
once. Later proofs cite these and do not unfold a record update. -/

namespace Sys2Proof.Machine

-- One proof after another, so that no thread holds a stack while it waits for another's.
set_option Elab.async false

/-! ## Families of values -/

@[simp] theorem PerPort.get_set_same {α : Type} (f : PerPort α) (p : Port) (y : α) : (f.set p y).get p = y := by
  cases p <;> rfl

theorem PerPort.get_set_ne {α : Type} (f : PerPort α) {p k : Port} (h : k ≠ p) (y : α) :
    (f.set p y).get k = f.get k := by
  cases p <;> cases k <;> first | rfl | exact absurd rfl h

theorem PerPort.ext_get {α : Type} {f g : PerPort α} (h : ∀ k, f.get k = g.get k) : f = g := by
  cases f; cases g
  simp only [PerPort.mk.injEq]
  exact ⟨h .p0, h .p1, h .p2⟩

@[simp] theorem PerLane.get_set_same {α : Type} (f : PerLane α) (l : Lane) (y : α) : (f.set l y).get l = y := by
  cases l <;> rfl

theorem PerLane.get_set_ne {α : Type} (f : PerLane α) {l k : Lane} (h : k ≠ l) (y : α) :
    (f.set l y).get k = f.get k := by
  cases l <;> cases k <;> first | rfl | exact absurd rfl h

theorem PerLane.ext_get {α : Type} {f g : PerLane α} (h : ∀ k, f.get k = g.get k) : f = g := by
  cases f; cases g
  simp only [PerLane.mk.injEq]
  exact ⟨h .sl0, h .sl1, h .sl2, h .sl3⟩

@[simp] theorem PerTach.get_set_same {α : Type} (f : PerTach α) (x : TachId) (y : α) : (f.set x y).get x = y := by
  cases x <;> rfl

theorem PerTach.get_set_ne {α : Type} (f : PerTach α) {x k : TachId} (h : k ≠ x) (y : α) :
    (f.set x y).get k = f.get k := by
  cases x <;> cases k <;> first | rfl | exact absurd rfl h

theorem PerTach.ext_get {α : Type} {f g : PerTach α} (h : ∀ k, f.get k = g.get k) : f = g := by
  cases f; cases g
  simp only [PerTach.mk.injEq]
  exact ⟨h .a, h .b⟩

@[simp] theorem PerSection.get_set_same {α : Type} (f : PerSection α) (c : Section) (y : α) : (f.set c y).get c = y := by
  cases c <;> rfl

theorem PerSection.get_set_ne {α : Type} (f : PerSection α) {c k : Section} (h : k ≠ c) (y : α) :
    (f.set c y).get k = f.get k := by
  cases c <;> cases k <;> first | rfl | exact absurd rfl h

theorem PerSection.ext_get {α : Type} {f g : PerSection α} (h : ∀ k, f.get k = g.get k) : f = g := by
  cases f; cases g
  simp only [PerSection.mk.injEq]
  exact ⟨h .access, h .calibration, h .sampling, h .odometry, h .limits, h .marking⟩

@[simp] theorem PerPort.get_map {α β : Type} (f : α → β) (g : PerPort α) (p : Port) :
    (g.map f).get p = f (g.get p) := by
  cases p <;> rfl

@[simp] theorem PerLane.get_map {α β : Type} (f : α → β) (g : PerLane α) (l : Lane) :
    (g.map f).get l = f (g.get l) := by
  cases l <;> rfl

/-! ## Updates of one block -/

@[simp] theorem State.modPort_pending (s : State) (p : Port) (f : PortState → PortState) : (s.modPort p f).pending = s.pending := rfl
@[simp] theorem State.modPort_time (s : State) (p : Port) (f : PortState → PortState) : (s.modPort p f).time = s.time := rfl
@[simp] theorem State.modPort_tach (s : State) (p : Port) (f : PortState → PortState) : (s.modPort p f).tach = s.tach := rfl
@[simp] theorem State.modPort_strobe (s : State) (p : Port) (f : PortState → PortState) : (s.modPort p f).strobe = s.strobe := rfl
@[simp] theorem State.modPort_lanes (s : State) (p : Port) (f : PortState → PortState) : (s.modPort p f).lanes = s.lanes := rfl
@[simp] theorem State.modPort_resampler (s : State) (p : Port) (f : PortState → PortState) : (s.modPort p f).resampler = s.resampler := rfl
@[simp] theorem State.modPort_base (s : State) (p : Port) (f : PortState → PortState) : (s.modPort p f).base = s.base := rfl
@[simp] theorem State.modPort_geo (s : State) (p : Port) (f : PortState → PortState) : (s.modPort p f).geo = s.geo := rfl
@[simp] theorem State.modPort_exc (s : State) (p : Port) (f : PortState → PortState) : (s.modPort p f).exc = s.exc := rfl
@[simp] theorem State.modPort_marking (s : State) (p : Port) (f : PortState → PortState) : (s.modPort p f).marking = s.marking := rfl
@[simp] theorem State.modPort_run (s : State) (p : Port) (f : PortState → PortState) : (s.modPort p f).run = s.run := rfl
@[simp] theorem State.modPort_ring (s : State) (p : Port) (f : PortState → PortState) : (s.modPort p f).ring = s.ring := rfl
@[simp] theorem State.modPort_store (s : State) (p : Port) (f : PortState → PortState) : (s.modPort p f).store = s.store := rfl
@[simp] theorem State.modPort_resetPending (s : State) (p : Port) (f : PortState → PortState) : (s.modPort p f).resetPending = s.resetPending := rfl

@[simp] theorem State.modPort_get_same (s : State) (p : Port) (f : PortState → PortState) :
    (s.modPort p f).ports.get p = f (s.ports.get p) := by
  simp [State.modPort]

theorem State.modPort_get_ne (s : State) {p k : Port} (h : k ≠ p) (f : PortState → PortState) :
    (s.modPort p f).ports.get k = s.ports.get k := by
  simp [State.modPort, PerPort.get_set_ne _ h]

@[simp] theorem State.setTach_pending (s : State) (x : TachId) (t : Tach) : (s.setTach x t).pending = s.pending := rfl
@[simp] theorem State.setTach_time (s : State) (x : TachId) (t : Tach) : (s.setTach x t).time = s.time := rfl
@[simp] theorem State.setTach_strobe (s : State) (x : TachId) (t : Tach) : (s.setTach x t).strobe = s.strobe := rfl
@[simp] theorem State.setTach_lanes (s : State) (x : TachId) (t : Tach) : (s.setTach x t).lanes = s.lanes := rfl
@[simp] theorem State.setTach_resampler (s : State) (x : TachId) (t : Tach) : (s.setTach x t).resampler = s.resampler := rfl
@[simp] theorem State.setTach_base (s : State) (x : TachId) (t : Tach) : (s.setTach x t).base = s.base := rfl
@[simp] theorem State.setTach_geo (s : State) (x : TachId) (t : Tach) : (s.setTach x t).geo = s.geo := rfl
@[simp] theorem State.setTach_exc (s : State) (x : TachId) (t : Tach) : (s.setTach x t).exc = s.exc := rfl
@[simp] theorem State.setTach_marking (s : State) (x : TachId) (t : Tach) : (s.setTach x t).marking = s.marking := rfl
@[simp] theorem State.setTach_run (s : State) (x : TachId) (t : Tach) : (s.setTach x t).run = s.run := rfl
@[simp] theorem State.setTach_ring (s : State) (x : TachId) (t : Tach) : (s.setTach x t).ring = s.ring := rfl
@[simp] theorem State.setTach_store (s : State) (x : TachId) (t : Tach) : (s.setTach x t).store = s.store := rfl
@[simp] theorem State.setTach_ports (s : State) (x : TachId) (t : Tach) : (s.setTach x t).ports = s.ports := rfl
@[simp] theorem State.setTach_resetPending (s : State) (x : TachId) (t : Tach) : (s.setTach x t).resetPending = s.resetPending := rfl

@[simp] theorem State.setTach_units (s : State) (x : TachId) (t : Tach) :
    (s.setTach x t).tach.units = s.tach.units.set x t := rfl

@[simp] theorem State.setLane_pending (s : State) (l : Lane) (r : LaneReceiver) : (s.setLane l r).pending = s.pending := rfl
@[simp] theorem State.setLane_time (s : State) (l : Lane) (r : LaneReceiver) : (s.setLane l r).time = s.time := rfl
@[simp] theorem State.setLane_tach (s : State) (l : Lane) (r : LaneReceiver) : (s.setLane l r).tach = s.tach := rfl
@[simp] theorem State.setLane_strobe (s : State) (l : Lane) (r : LaneReceiver) : (s.setLane l r).strobe = s.strobe := rfl
@[simp] theorem State.setLane_resampler (s : State) (l : Lane) (r : LaneReceiver) : (s.setLane l r).resampler = s.resampler := rfl
@[simp] theorem State.setLane_base (s : State) (l : Lane) (r : LaneReceiver) : (s.setLane l r).base = s.base := rfl
@[simp] theorem State.setLane_geo (s : State) (l : Lane) (r : LaneReceiver) : (s.setLane l r).geo = s.geo := rfl
@[simp] theorem State.setLane_exc (s : State) (l : Lane) (r : LaneReceiver) : (s.setLane l r).exc = s.exc := rfl
@[simp] theorem State.setLane_marking (s : State) (l : Lane) (r : LaneReceiver) : (s.setLane l r).marking = s.marking := rfl
@[simp] theorem State.setLane_run (s : State) (l : Lane) (r : LaneReceiver) : (s.setLane l r).run = s.run := rfl
@[simp] theorem State.setLane_ring (s : State) (l : Lane) (r : LaneReceiver) : (s.setLane l r).ring = s.ring := rfl
@[simp] theorem State.setLane_store (s : State) (l : Lane) (r : LaneReceiver) : (s.setLane l r).store = s.store := rfl
@[simp] theorem State.setLane_ports (s : State) (l : Lane) (r : LaneReceiver) : (s.setLane l r).ports = s.ports := rfl
@[simp] theorem State.setLane_resetPending (s : State) (l : Lane) (r : LaneReceiver) : (s.setLane l r).resetPending = s.resetPending := rfl

@[simp] theorem State.setLane_lane (s : State) (l : Lane) (r : LaneReceiver) :
    (s.setLane l r).lanes.lane = s.lanes.lane.set l r := rfl

@[simp] theorem State.offer_pending (s : State) (n : Notice) : (s.offer n).pending = s.pending := rfl
@[simp] theorem State.offer_time (s : State) (n : Notice) : (s.offer n).time = s.time := rfl
@[simp] theorem State.offer_tach (s : State) (n : Notice) : (s.offer n).tach = s.tach := rfl
@[simp] theorem State.offer_strobe (s : State) (n : Notice) : (s.offer n).strobe = s.strobe := rfl
@[simp] theorem State.offer_lanes (s : State) (n : Notice) : (s.offer n).lanes = s.lanes := rfl
@[simp] theorem State.offer_resampler (s : State) (n : Notice) : (s.offer n).resampler = s.resampler := rfl
@[simp] theorem State.offer_base (s : State) (n : Notice) : (s.offer n).base = s.base := rfl
@[simp] theorem State.offer_geo (s : State) (n : Notice) : (s.offer n).geo = s.geo := rfl
@[simp] theorem State.offer_exc (s : State) (n : Notice) : (s.offer n).exc = s.exc := rfl
@[simp] theorem State.offer_marking (s : State) (n : Notice) : (s.offer n).marking = s.marking := rfl
@[simp] theorem State.offer_run (s : State) (n : Notice) : (s.offer n).run = s.run := rfl
@[simp] theorem State.offer_ring (s : State) (n : Notice) : (s.offer n).ring = s.ring := rfl
@[simp] theorem State.offer_store (s : State) (n : Notice) : (s.offer n).store = s.store := rfl
@[simp] theorem State.offer_resetPending (s : State) (n : Notice) : (s.offer n).resetPending = s.resetPending := rfl

@[simp] theorem State.offer_get (s : State) (n : Notice) (p : Port) :
    (s.offer n).ports.get p = (s.ports.get p).offer n := by
  simp [State.offer]

@[simp] theorem State.finishRequest_pending (s : State) (p : Port) : (s.finishRequest p).pending = s.pending := rfl
@[simp] theorem State.finishRequest_time (s : State) (p : Port) : (s.finishRequest p).time = s.time := rfl
@[simp] theorem State.finishRequest_tach (s : State) (p : Port) : (s.finishRequest p).tach = s.tach := rfl
@[simp] theorem State.finishRequest_strobe (s : State) (p : Port) : (s.finishRequest p).strobe = s.strobe := rfl
@[simp] theorem State.finishRequest_lanes (s : State) (p : Port) : (s.finishRequest p).lanes = s.lanes := rfl
@[simp] theorem State.finishRequest_resampler (s : State) (p : Port) : (s.finishRequest p).resampler = s.resampler := rfl
@[simp] theorem State.finishRequest_base (s : State) (p : Port) : (s.finishRequest p).base = s.base := rfl
@[simp] theorem State.finishRequest_geo (s : State) (p : Port) : (s.finishRequest p).geo = s.geo := rfl
@[simp] theorem State.finishRequest_exc (s : State) (p : Port) : (s.finishRequest p).exc = s.exc := rfl
@[simp] theorem State.finishRequest_marking (s : State) (p : Port) : (s.finishRequest p).marking = s.marking := rfl
@[simp] theorem State.finishRequest_run (s : State) (p : Port) : (s.finishRequest p).run = s.run := rfl
@[simp] theorem State.finishRequest_ring (s : State) (p : Port) : (s.finishRequest p).ring = s.ring := rfl
@[simp] theorem State.finishRequest_store (s : State) (p : Port) : (s.finishRequest p).store = s.store := rfl
@[simp] theorem State.finishRequest_resetPending (s : State) (p : Port) : (s.finishRequest p).resetPending = s.resetPending := rfl

@[simp] theorem State.answer_pending (s : State) (p : Port) (r : Request) (c : Completion) (fs : List Field) : (s.answer p r c fs).pending = s.pending := rfl
@[simp] theorem State.answer_time (s : State) (p : Port) (r : Request) (c : Completion) (fs : List Field) : (s.answer p r c fs).time = s.time := rfl
@[simp] theorem State.answer_tach (s : State) (p : Port) (r : Request) (c : Completion) (fs : List Field) : (s.answer p r c fs).tach = s.tach := rfl
@[simp] theorem State.answer_strobe (s : State) (p : Port) (r : Request) (c : Completion) (fs : List Field) : (s.answer p r c fs).strobe = s.strobe := rfl
@[simp] theorem State.answer_lanes (s : State) (p : Port) (r : Request) (c : Completion) (fs : List Field) : (s.answer p r c fs).lanes = s.lanes := rfl
@[simp] theorem State.answer_resampler (s : State) (p : Port) (r : Request) (c : Completion) (fs : List Field) : (s.answer p r c fs).resampler = s.resampler := rfl
@[simp] theorem State.answer_base (s : State) (p : Port) (r : Request) (c : Completion) (fs : List Field) : (s.answer p r c fs).base = s.base := rfl
@[simp] theorem State.answer_geo (s : State) (p : Port) (r : Request) (c : Completion) (fs : List Field) : (s.answer p r c fs).geo = s.geo := rfl
@[simp] theorem State.answer_exc (s : State) (p : Port) (r : Request) (c : Completion) (fs : List Field) : (s.answer p r c fs).exc = s.exc := rfl
@[simp] theorem State.answer_marking (s : State) (p : Port) (r : Request) (c : Completion) (fs : List Field) : (s.answer p r c fs).marking = s.marking := rfl
@[simp] theorem State.answer_run (s : State) (p : Port) (r : Request) (c : Completion) (fs : List Field) : (s.answer p r c fs).run = s.run := rfl
@[simp] theorem State.answer_ring (s : State) (p : Port) (r : Request) (c : Completion) (fs : List Field) : (s.answer p r c fs).ring = s.ring := rfl
@[simp] theorem State.answer_store (s : State) (p : Port) (r : Request) (c : Completion) (fs : List Field) : (s.answer p r c fs).store = s.store := rfl
@[simp] theorem State.answer_resetPending (s : State) (p : Port) (r : Request) (c : Completion) (fs : List Field) : (s.answer p r c fs).resetPending = s.resetPending := rfl

@[simp] theorem State.grant_pending (s : State) : s.grant.pending = s.pending := rfl
@[simp] theorem State.grant_time (s : State) : s.grant.time = s.time := rfl
@[simp] theorem State.grant_tach (s : State) : s.grant.tach = s.tach := rfl
@[simp] theorem State.grant_strobe (s : State) : s.grant.strobe = s.strobe := rfl
@[simp] theorem State.grant_lanes (s : State) : s.grant.lanes = s.lanes := rfl
@[simp] theorem State.grant_resampler (s : State) : s.grant.resampler = s.resampler := rfl
@[simp] theorem State.grant_base (s : State) : s.grant.base = s.base := rfl
@[simp] theorem State.grant_geo (s : State) : s.grant.geo = s.geo := rfl
@[simp] theorem State.grant_exc (s : State) : s.grant.exc = s.exc := rfl
@[simp] theorem State.grant_marking (s : State) : s.grant.marking = s.marking := rfl
@[simp] theorem State.grant_run (s : State) : s.grant.run = s.run := rfl
@[simp] theorem State.grant_store (s : State) : s.grant.store = s.store := rfl
@[simp] theorem State.grant_ports (s : State) : s.grant.ports = s.ports := rfl
@[simp] theorem State.grant_resetPending (s : State) : s.grant.resetPending = s.resetPending := rfl
@[simp] theorem State.grant_granted (s : State) : s.grant.ring.granted = s.nextGrant := rfl
@[simp] theorem State.grant_contents (s : State) : s.grant.ring.contents = s.ring.contents := rfl
@[simp] theorem State.grant_head (s : State) : s.grant.ring.head = s.ring.head := rfl
@[simp] theorem State.grant_oldest (s : State) : s.grant.ring.oldest = s.ring.oldest := rfl
@[simp] theorem State.grant_rotation (s : State) : s.grant.ring.rotation = s.ring.rotation := rfl

/-! ## Distance strobe lines -/

@[simp] theorem DsOutputs.line_setLine_same (o : DsOutputs) (l : DsId) (d : DsLine) :
    (o.setLine l d).line l = d := by
  cases l <;> rfl

theorem DsOutputs.line_setLine_ne (o : DsOutputs) {l k : DsId} (h : k ≠ l) (d : DsLine) :
    (o.setLine l d).line k = o.line k := by
  cases l <;> cases k <;> first | rfl | exact absurd rfl h

@[simp] theorem DsOutputs.due_setLine (o : DsOutputs) (l : DsId) (d : DsLine) :
    (o.setLine l d).due = o.due := by
  cases l <;> rfl

/-! ## Notices -/

@[simp] theorem State.offerAll_pending (s : State) (ns : List Notice) : (s.offerAll ns).pending = s.pending := by
  induction ns generalizing s with
  | nil => rfl
  | cons n ns ih => exact (ih (s.offer n)).trans (State.offer_pending s n)

@[simp] theorem State.offerAll_time (s : State) (ns : List Notice) : (s.offerAll ns).time = s.time := by
  induction ns generalizing s with
  | nil => rfl
  | cons n ns ih => exact (ih (s.offer n)).trans (State.offer_time s n)

@[simp] theorem State.offerAll_tach (s : State) (ns : List Notice) : (s.offerAll ns).tach = s.tach := by
  induction ns generalizing s with
  | nil => rfl
  | cons n ns ih => exact (ih (s.offer n)).trans (State.offer_tach s n)

@[simp] theorem State.offerAll_strobe (s : State) (ns : List Notice) : (s.offerAll ns).strobe = s.strobe := by
  induction ns generalizing s with
  | nil => rfl
  | cons n ns ih => exact (ih (s.offer n)).trans (State.offer_strobe s n)

@[simp] theorem State.offerAll_lanes (s : State) (ns : List Notice) : (s.offerAll ns).lanes = s.lanes := by
  induction ns generalizing s with
  | nil => rfl
  | cons n ns ih => exact (ih (s.offer n)).trans (State.offer_lanes s n)

@[simp] theorem State.offerAll_resampler (s : State) (ns : List Notice) : (s.offerAll ns).resampler = s.resampler := by
  induction ns generalizing s with
  | nil => rfl
  | cons n ns ih => exact (ih (s.offer n)).trans (State.offer_resampler s n)

@[simp] theorem State.offerAll_base (s : State) (ns : List Notice) : (s.offerAll ns).base = s.base := by
  induction ns generalizing s with
  | nil => rfl
  | cons n ns ih => exact (ih (s.offer n)).trans (State.offer_base s n)

@[simp] theorem State.offerAll_geo (s : State) (ns : List Notice) : (s.offerAll ns).geo = s.geo := by
  induction ns generalizing s with
  | nil => rfl
  | cons n ns ih => exact (ih (s.offer n)).trans (State.offer_geo s n)

@[simp] theorem State.offerAll_exc (s : State) (ns : List Notice) : (s.offerAll ns).exc = s.exc := by
  induction ns generalizing s with
  | nil => rfl
  | cons n ns ih => exact (ih (s.offer n)).trans (State.offer_exc s n)

@[simp] theorem State.offerAll_marking (s : State) (ns : List Notice) : (s.offerAll ns).marking = s.marking := by
  induction ns generalizing s with
  | nil => rfl
  | cons n ns ih => exact (ih (s.offer n)).trans (State.offer_marking s n)

@[simp] theorem State.offerAll_run (s : State) (ns : List Notice) : (s.offerAll ns).run = s.run := by
  induction ns generalizing s with
  | nil => rfl
  | cons n ns ih => exact (ih (s.offer n)).trans (State.offer_run s n)

@[simp] theorem State.offerAll_ring (s : State) (ns : List Notice) : (s.offerAll ns).ring = s.ring := by
  induction ns generalizing s with
  | nil => rfl
  | cons n ns ih => exact (ih (s.offer n)).trans (State.offer_ring s n)

@[simp] theorem State.offerAll_store (s : State) (ns : List Notice) : (s.offerAll ns).store = s.store := by
  induction ns generalizing s with
  | nil => rfl
  | cons n ns ih => exact (ih (s.offer n)).trans (State.offer_store s n)

@[simp] theorem State.offerAll_resetPending (s : State) (ns : List Notice) : (s.offerAll ns).resetPending = s.resetPending := by
  induction ns generalizing s with
  | nil => rfl
  | cons n ns ih => exact (ih (s.offer n)).trans (State.offer_resetPending s n)

end Sys2Proof.Machine
end

