-- ==== Sys2Proof/Laws/Marks.lean ====
section
/-! SUPPORT. The mark queue and the class queue: what an insertion, a decision, a firing and a discard
can do (R107, R137 to R140, R144). -/

namespace Sys2Proof.Machine

-- One proof after another, so that no thread holds a stack while it waits for another's.
set_option Elab.async false

/-- An insertion adds one entry (R138). -/
theorem insertMark_length (e : MarkEntry) (q : List MarkEntry) :
    (insertMark e q).length = q.length + 1 := by
  induction q with
  | nil => rfl
  | cons x q ih =>
    unfold insertMark
    split <;> simp [ih]

/-- What an insertion holds: the new entry and the old ones. -/
theorem mem_insertMark (e y : MarkEntry) (q : List MarkEntry) :
    y ∈ insertMark e q ↔ y = e ∨ y ∈ q := by
  induction q with
  | nil => simp [insertMark]
  | cons x q ih =>
    unfold insertMark
    split
    · simp only [List.mem_cons, ih]
      tauto
    · simp only [List.mem_cons]

/-- An insertion of a new target keeps the targets strictly ascending (R138). -/
theorem insertMark_pairwise (e : MarkEntry) (q : List MarkEntry)
    (h : q.Pairwise (fun x y => x.target < y.target)) (hne : ∀ x ∈ q, x.target ≠ e.target) :
    (insertMark e q).Pairwise (fun x y => x.target < y.target) := by
  induction q with
  | nil => simp [insertMark]
  | cons x q ih =>
    rw [List.pairwise_cons] at h
    unfold insertMark
    split
    · rename_i hx
      rw [List.pairwise_cons]
      refine ⟨fun y hy => ?_, ih h.2 (fun y hy => hne y (List.mem_cons_of_mem _ hy))⟩
      rcases (mem_insertMark e y q).mp hy with rfl | hy
      · exact hx
      · exact h.1 y hy
    · rename_i hx
      have hlt : e.target < x.target := by
        have := hne x List.mem_cons_self
        omega
      rw [List.pairwise_cons, List.pairwise_cons]
      refine ⟨fun y hy => ?_, h⟩
      rcases List.mem_cons.mp hy with rfl | hy
      · exact hlt
      · exact hlt.trans (h.1 y hy)

/-- The five outcomes of a mark request, each with all that it changes (R137). -/
theorem MarkingUnit.decideMark_cases (u : MarkingUnit) (mk : MarkingImage) (t : Int) (p : Nat)
    (src : MarkSource) :
    (mk.enable = false ∧ u.decideMark mk t p src = (u, .none))
    ∨ (mk.enable = true ∧ t ≤ u.rm ∧ u.decideMark mk t p src
        = ({ u with counts := { u.counts with late := u.counts.late + 1 } }, .late))
    ∨ (mk.enable = true ∧ u.rm < t ∧ mergesWith mk t u.queue = true ∧ u.decideMark mk t p src
        = ({ u with counts := { u.counts with merged := u.counts.merged + 1 } }, .merged))
    ∨ (mk.enable = true ∧ u.rm < t ∧ mergesWith mk t u.queue = false
        ∧ Config.markCapacity ≤ u.queue.length ∧ u.decideMark mk t p src
        = ({ u with counts := { u.counts with dropped := u.counts.dropped + 1 } }, .dropped))
    ∨ (mk.enable = true ∧ u.rm < t ∧ mergesWith mk t u.queue = false
        ∧ u.queue.length < Config.markCapacity ∧ u.decideMark mk t p src
        = ({ u with
             queue := insertMark { target := t, point := p, source := src } u.queue
             counts := { u.counts with queued := u.counts.queued + 1 } }, .queued)) := by
  unfold MarkingUnit.decideMark
  cases mk.enable <;> by_cases h1 : t ≤ u.rm <;> cases mergesWith mk t u.queue
    <;> by_cases h2 : Config.markCapacity ≤ u.queue.length <;> simp [h1, h2] <;> omega

/-- Where a request does not merge, no entry has its target (R137, R138). -/
theorem target_ne_of_not_mergesWith {mk : MarkingImage} {t : Int} {q : List MarkEntry}
    (h : mergesWith mk t q = false) : ∀ x ∈ q, x.target ≠ t := by
  intro x hx heq
  simp only [mergesWith, List.any_eq_false, decide_eq_true_eq] at h
  have := h x hx
  rw [heq] at this
  simp at this

/-- A discard empties the queue and counts what it held (R144, R145). -/
@[simp] theorem MarkingUnit.discardAll_queue (u : MarkingUnit) : u.discardAll.queue = [] := rfl

/-- What is left of the queue after a firing is its tail from the first target not reached (R140). -/
@[simp] theorem MarkingUnit.take_queue (u : MarkingUnit) (mk : MarkingImage) (r : Int) (k : Word32)
    (m : Nat) (b : Bool) :
    (u.take mk r k m b).queue = u.queue.dropWhile (fun e => decide (e.target ≤ r)) := rfl

/-- An insertion into the class queue adds at most one entry (R107). -/
theorem insertClass_length_le (e : ClassEntry) (q : List ClassEntry) :
    (insertClass e q).length ≤ q.length + 1 := by
  induction q with
  | nil => simp [insertClass]
  | cons x q ih =>
    unfold insertClass
    repeat' split
    all_goals simp
    omega

/-- What the class queue holds after an insertion (R107). -/
theorem mem_insertClass {e y : ClassEntry} {q : List ClassEntry} (h : y ∈ insertClass e q) :
    y = e ∨ y ∈ q := by
  induction q with
  | nil => simpa [insertClass] using h
  | cons x q ih =>
    unfold insertClass at h
    repeat' split at h
    all_goals simp only [List.mem_cons] at h ⊢
    · rcases h with h | h
      · tauto
      · have := ih h
        tauto
    · tauto
    · tauto

end Sys2Proof.Machine
end

