-- ==== Sys2Proof/Laws/Exceedances.lean ====
section
/-! SUPPORT. What a tracker's operations can do: levels, urgent conditions, mark requests, closings
(R102, R103, R116 to R126). -/

namespace Sys2Proof.Machine

-- One proof after another, so that no thread holds a stack while it waits for another's.
set_option Elab.async false

/-- A level lies in 0..3 (R102). -/
theorem levelOf_le (l : LimitsImage) (c cls : Nat) (e : Sense) (v : Int) : levelOf l c cls e v ≤ 3 := by
  unfold levelOf
  repeat' split
  all_goals omega

/-- A value beyond the closing reference reaches level 1 at least (R102, R103). -/
theorem one_le_levelOf {l : LimitsImage} {c cls : Nat} {e : Sense} {v reference : Int}
    (h : closingReference l c cls e = some reference) (hb : beyond e v reference = true) :
    1 ≤ levelOf l c cls e v := by
  unfold closingReference at h
  unfold levelOf
  cases h1 : l.threshold c cls e 1 <;> cases h2 : l.threshold c cls e 2
    <;> cases h3 : l.threshold c cls e 3 <;> simp_all [reaches] <;> (repeat' split) <;> omega

/-- An EXCEEDING zone carries a level of 1 to 3 (R103). -/
theorem zoneOf_exceeding {l : LimitsImage} {c cls : Nat} {e : Sense} {v : Option Int} {level : Nat}
    (h : zoneOf l c cls e v = .exceeding level) : 1 ≤ level ∧ level ≤ 3 := by
  unfold zoneOf at h
  split at h
  · cases h
  · split at h
    · cases h
    · rename_i hr
      split at h
      · rename_i hb
        cases h
        exact ⟨one_le_levelOf hr hb, levelOf_le _ _ _ _ _⟩
      · split at h <;> cases h

/-- R124 leaves the level as it is. -/
@[simp] theorem applyUrgent_level (x : Judging) (c : Nat) (e : Sense) (v : Int) (g : Progress) (y : Tally) :
    (applyUrgent x c e v g y).1.level = g.level := by
  unfold applyUrgent
  split <;> rfl

/-- R125 leaves the level as it is. -/
@[simp] theorem applyMark_level (x : Judging) (c : Nat) (e : Sense) (g : Progress) (y : Tally) :
    (applyMark x c e g y).1.level = g.level := by
  unfold applyMark
  split <;> rfl

/-- The level after an EXCEEDING point is the greater of the level held and the point's (R117). -/
@[simp] theorem Progress.exceed_level (g : Progress) (e : Sense) (r : PointRecord) (cls level : Nat)
    (v : Int) : (g.exceed e r cls level v).level = max g.level level := by
  unfold Progress.exceed Progress.judgePeak
  dsimp only
  split <;> rfl

/-- After R124 and R125 the tracker is OPEN at the level it had. -/
theorem applyBoth_open (x : Judging) (c : Nat) (e : Sense) (v : Int) (g : Progress) (y : Tally) :
    ∃ g', (applyBoth x c e v g y).1 = some g' ∧ g'.level = g.level :=
  ⟨_, rfl, by simp⟩

/-- A closing at an evaluation leaves the tracker CLEAR (R126). -/
@[simp] theorem Judging.close_clear (x : Judging) (c : Nat) (e : Sense) (why : Closing) (g : Progress)
    (y : Tally) : (x.close c e why g y).1 = none := rfl

/-- The two outcomes of a closing (R126). -/
theorem closeExceedance_cases (l : LimitsImage) (sam : SamplingImage) (c : Nat) (e : Sense)
    (why : Closing) (g : Progress) (y : Tally) :
    (g.lengthPoints < (l.paramsOf c).minLength ∧ closeExceedance l sam c e why g y
      = { y with counts := { y.counts with suppressed := satInc 65535 y.counts.suppressed } })
    ∨ ((l.paramsOf c).minLength ≤ g.lengthPoints ∧ closeExceedance l sam c e why g y
      = { y with
          number := y.number + 1
          out := y.out ++ [exceedanceRecord sam.interval (y.number + 1) c e why g]
          counts := y.counts.raiseLevel g.level }) := by
  unfold closeExceedance
  split
  · exact .inl ⟨‹_›, rfl⟩
  · exact .inr ⟨by omega, rfl⟩

/-- What trackers acting in turn can do: with `k` of them acting, each on what the one before it left and
with no record waiting, the others stay as they are; and either all have acted, or a record waits (R115,
R127, R129). -/
theorem actInTurn_cases (act : Nat → Tracker → Tally → Tracker × Tally) (i : Nat) (ts : List Tracker)
    (y : Tally) :
    ∃ (k : Nat) (ys : Nat → Tally), k ≤ ts.length ∧ ys 0 = y
      ∧ (∀ j t, j < k → ts[j]? = some t → (ys j).out = []
          ∧ ∃ t', (actInTurn act i ts y).1[j]? = some t' ∧ act (i + j) t (ys j) = (t', ys (j + 1)))
      ∧ (actInTurn act i ts y).1.drop k = ts.drop k
      ∧ (actInTurn act i ts y).2 = (ys k, i + k)
      ∧ (k = ts.length ∨ (ys k).out ≠ []) := by
  induction ts generalizing i y with
  | nil => exact ⟨0, fun _ => y, by simp [actInTurn]⟩
  | cons t ts ih =>
    cases h : y.out.isEmpty with
    | false => exact ⟨0, fun _ => y, by simp_all [actInTurn]⟩
    | true =>
      obtain ⟨k, ys, hk, h0, hact, hd, h2, he⟩ := ih (i + 1) (act i t y).2
      refine ⟨k + 1, fun n => match n with | 0 => y | n + 1 => ys n, ?_⟩
      simp only [actInTurn, h, if_true, List.length_cons, List.drop_succ_cons]
      refine ⟨by omega, trivial, ?_, hd, by rw [h2]; congr 1; omega, ?_⟩
      · rintro (_ | j) u hj hu
        · simp only [List.getElem?_cons_zero, Option.some.injEq] at hu
          subst hu
          exact ⟨by simpa using h, (act i t y).1, rfl, by simp [h0]⟩
        · obtain ⟨ho, u', hu', ha⟩ := hact j u (by omega) (by simpa using hu)
          exact ⟨ho, u', by simpa using hu', by rw [← ha]; congr 1; omega⟩
      · rcases he with rfl | he
        · exact .inl rfl
        · exact .inr he

/-- The trackers that act are as many as there were (R113). -/
@[simp] theorem actInTurn_length (act : Nat → Tracker → Tally → Tracker × Tally) (i : Nat)
    (ts : List Tracker) (y : Tally) : (actInTurn act i ts y).1.length = ts.length := by
  induction ts generalizing i y with
  | nil => rfl
  | cons t ts ih =>
    unfold actInTurn
    split <;> simp [ih]

/-- No tracker is added or lost by acting (R113). -/
@[simp] theorem State.actFrom_length (s : State) (act : Nat → Tracker → Tally → Tracker × Tally)
    (next : Nat) (rest : Nat → Turn) :
    (s.actFrom act next rest).exc.trackers.length = s.exc.trackers.length := by
  simp only [State.actFrom, ExceedanceUnit.settle, List.length_append, actInTurn_length, List.length_take,
    List.length_drop]
  omega

/-- Acting in turn changes the exceedance unit and the marking unit alone. -/
theorem State.actFrom_frame (s : State) (act : Nat → Tracker → Tally → Tracker × Tally) (next : Nat)
    (rest : Nat → Turn) :
    s.actFrom act next rest
      = { s with exc := (s.actFrom act next rest).exc, marking := (s.actFrom act next rest).marking } := rfl

/-- Noting a class change changes no tracker's state (R123). -/
@[simp] theorem noteClassChange_length (a b : Nat) (ts : List Tracker) :
    (noteClassChange a b ts).length = ts.length := by
  unfold noteClassChange
  split <;> simp

end Sys2Proof.Machine
end

