-- ==== Sys2Proof/Laws/Geometry.lean ====
section
/-! SUPPORT. What the geometry unit's shared operations answer: a saturated channel, a rounded half, a
twist, a versine, the class of a record, one written record, and a flush. -/

namespace Sys2Proof.Machine

-- One proof after another, so that no thread holds a stack while it waits for another's.
set_option Elab.async false

/-- A channel formed from an exact value (R85). -/
theorem saturate_some (v : Int) : saturate (some v) = limitedChannel v := by
  unfold saturate limitedChannel
  simp only
  split
  · rename_i h
    rw [min_eq_left (by omega), max_eq_right (by omega), decide_eq_true (lt_abs.mpr (.inl h))]
  · split
    · rename_i h h'
      rw [min_eq_right (by omega), max_eq_left (by omega), decide_eq_true (lt_abs.mpr (.inr (by omega)))]
    · rw [min_eq_right (by omega), max_eq_right (by omega),
        decide_eq_false (by rw [lt_abs]; omega)]

/-- The nearest integer to a half, halves away from zero (00, Rounding). -/
theorem roundDiv_two (n : Int) : |2 * roundDiv n 2 - n| ≤ 1 ∧ |n| ≤ |2 * roundDiv n 2| := by
  unfold roundDiv
  rcases le_or_gt 0 n with h | h
  · rw [if_pos h, abs_of_nonneg h, le_abs, abs_le]
    omega
  · rw [if_neg (by omega), abs_of_neg h, le_abs, abs_le]
    omega

/-- The twist of R82 with the saturation of R85. -/
theorem twistOf_is (h : List HistoryPair) (m b : Nat) (own : Channel) :
    twistIs h m b own (twistOf h m own b) := by
  unfold twistIs twistOf historyAt
  constructor
  · intro v e w hv hb hw
    split at hb
    · rename_i hle
      simp [hle, hb, hv, hw, subValues, saturate_some, limitedChannel]
    · cases hb
  · intro hh
    split at hh
    · rename_i hle
      cases hf : h.find? (fun e => e.point == m - b) with
      | none => simp [hle, absentChannel]
      | some e =>
        rw [hf] at hh
        simp only [reduceCtorEq, Option.some.injEq, exists_eq_left', false_or] at hh
        rcases hh with hh | hh <;> cases hx : own.value <;>
          simp_all [subValues, saturate, absentChannel]
    · rename_i hle
      simp [hle, absentChannel]

/-- The versine of R83 with the saturation of R85. -/
theorem versineOf_is (window : List WindowSample) (u : WindowSample → Option Int) (m half : Nat) :
    versineIs window u m half (versineOf window u m half) := by
  unfold versineIs versineOf inputAt
  constructor
  · intro v w z hle hv hw hz
    simp only at hv hw hz
    exact ⟨_, by rw [if_pos hle, hv, hw, hz]; exact saturate_some _, roundDiv_two _⟩
  · intro hh
    simp only at hh
    split
    · split
      · rename_i h1 h2 h3
        rw [h1, h2, h3] at hh
        simp at hh
        omega
      · rfl
    · rfl

/-- The class that a record carries (R88). -/
theorem classFor_is (s : State) (m : Nat) : s.classIs m (s.classFor m) := by
  unfold State.classIs State.classFor classAt
  constructor
  · intro before e after hq he ha
    have : after.filter (fun x => decide (x.effective ≤ m)) = [] := by
      rw [List.filter_eq_nil_iff]
      intro x hx
      have := ha x hx
      simp
      omega
    rw [hq, List.filter_append, List.filter_cons_of_pos (by simpa using he), this]
    simp
  · intro ha
    have : s.exc.classQueue.filter (fun x => decide (x.effective ≤ m)) = [] := by
      rw [List.filter_eq_nil_iff]
      intro x hx
      have := ha x hx
      simp
      omega
    rw [this]
    rfl

/-- A record of the segment as the geometry unit forms it (R82 to R88). -/
theorem pointRecord_writes (s : State) (window : List WindowSample) (history : List HistoryPair)
    (y : WindowSample) (final : Bool) :
    s.writes window history y final
      (pointRecord y.sample (s.classFor y.sample.point)
        (channelsOf s.store.committed.sampling window history y) y.lowSpeed false final) where
  point := ⟨rfl, rfl, rfl⟩
  cls := classFor_is s _
  sample := ⟨rfl, rfl, rfl, rfl, rfl, rfl, rfl⟩
  marks := ⟨rfl, rfl⟩
  values := ⟨rfl, rfl⟩
  twists := ⟨twistOf_is _ _ _ _, twistOf_is _ _ _ _⟩
  tops := ⟨versineOf_is _ _ _ _, versineOf_is _ _ _ _⟩
  aligns := ⟨versineOf_is _ _ _ _, versineOf_is _ _ _ _⟩

/-- Marking a record as written leaves the chord inputs of the window (R75). -/
theorem inputAt_written (window : List WindowSample) (m p : Nat) (u : WindowSample → Option Int)
    (hu : ∀ y b, u { y with written := b } = u y) :
    inputAt (window.map (fun y => if y.sample.point = m then { y with written := true } else y)) u p
      = inputAt window u p := by
  unfold inputAt
  rw [List.find?_map]
  have : ((fun y : WindowSample => y.sample.point == p)
      ∘ fun y => if y.sample.point = m then { y with written := true } else y)
      = fun y => y.sample.point == p := by
    funext y
    simp only [Function.comp]
    split <;> rfl
  rw [this]
  cases window.find? (fun y => y.sample.point == p) with
  | none => rfl
  | some y =>
    simp only [Option.map_some, Option.bind_some]
    split
    · exact hu y true
    · rfl

/-- The channels formed over a window do not depend on which of its records are written. -/
theorem channelsOf_written (sam : SamplingImage) (window : List WindowSample) (m : Nat)
    (history : List HistoryPair) (x : WindowSample) :
    channelsOf sam (window.map (fun y => if y.sample.point = m then { y with written := true } else y))
      history x = channelsOf sam window history x := by
  unfold channelsOf versineOf
  simp only [inputAt_written _ _ _ WindowSample.yL (fun _ _ => rfl),
    inputAt_written _ _ _ WindowSample.yR (fun _ _ => rfl),
    inputAt_written _ _ _ WindowSample.aL (fun _ _ => rfl),
    inputAt_written _ _ _ WindowSample.aR (fun _ _ => rfl)]

/-- What the writing of pending records leaves, beside the records themselves (R86, R90). -/
theorem writeAll_frame (g : GeometryUnit) (sam : SamplingImage) (cls : Nat → Nat)
    (xs : List WindowSample) :
    (g.writeAll sam cls xs).inbox = g.inbox ∧ (g.writeAll sam cls xs).segStart = g.segStart
    ∧ (g.writeAll sam cls xs).endFlush = g.endFlush
    ∧ (g.writeAll sam cls xs).flushLeft = g.flushLeft
    ∧ (g.writeAll sam cls xs).window.map WindowSample.sample = g.window.map WindowSample.sample
    ∧ (g.writeAll sam cls xs).lastWritten = match xs.getLast? with
      | some y => some y.sample.point
      | none => g.lastWritten := by
  induction xs generalizing g with
  | nil => exact ⟨rfl, rfl, rfl, rfl, rfl, rfl⟩
  | cons x rest ih =>
    obtain ⟨h1, h2, h3, h4, h5, h6⟩ := ih (g.write sam cls true x)
    refine ⟨h1, h2, h3, h4, h5.trans ?_, h6.trans ?_⟩
    · simp only [GeometryUnit.write, List.map_map]
      apply List.map_congr_left
      intro y _
      simp only [Function.comp]
      split <;> rfl
    · cases rest with
      | nil => rfl
      | cons z zs =>
        rw [List.getLast?_cons_cons]
        cases h : (z :: zs).getLast? with
        | none => simp at h
        | some y => rfl

/-- The window after the writing of pending records: those are marked as written, and nothing else of it
changes (R75, R86, R90). -/
theorem writeAll_window (sam : SamplingImage) (cls : Nat → Nat) (xs : List WindowSample) :
    ∀ g : GeometryUnit, (g.writeAll sam cls xs).window
      = g.window.map (fun y => { y with
        written := y.written || xs.any (fun x => x.sample.point == y.sample.point) }) := by
  induction xs with
  | nil => exact fun g => by simp [GeometryUnit.writeAll]
  | cons x rest ih =>
    intro g
    refine (ih (g.write sam cls true x)).trans ?_
    simp only [GeometryUnit.write, List.map_map]
    apply List.map_congr_left
    intro y _
    simp only [Function.comp, List.any_cons]
    by_cases h : y.sample.point = x.sample.point
    · simp [h]
    · have : (x.sample.point == y.sample.point) = false := beq_false_of_ne fun e => h e.symm
      simp [h, this]

/-- A flush leaves a record written for every sample of the window (R90). -/
theorem flush_window (g : GeometryUnit) (sam : SamplingImage) (cls : Nat → Nat) :
    (g.flush sam cls).window = g.window.map (fun y => { y with written := true }) := by
  refine (writeAll_window sam cls (g.window.filter (fun x => !x.written)) g).trans ?_
  apply List.map_congr_left
  intro y hy
  congr 1
  cases h : y.written with
  | true => rfl
  | false => exact List.any_eq_true.2 ⟨y, List.mem_filter.2 ⟨hy, by simp [h]⟩, by simp⟩

/-- The records that a flush writes, each formed on the history that the one before it leaves (R90). -/
theorem writeAll_records (s : State) (window : List WindowSample) (xs : List WindowSample) :
    ∀ g : GeometryUnit,
    (∀ h x, channelsOf s.store.committed.sampling g.window h x
      = channelsOf s.store.committed.sampling window h x) →
    ∃ rs, (g.writeAll s.store.committed.sampling s.classFor xs).out = g.out ++ rs
      ∧ rs.length = xs.length
      ∧ ∃ h : Nat → List HistoryPair, h 0 = g.history
        ∧ h rs.length = (g.writeAll s.store.committed.sampling s.classFor xs).history
        ∧ ∀ i y r, xs[i]? = some y → rs[i]? = some r →
          s.writes window (h i) y true r ∧ h (i + 1) = pairAdded (h i) y := by
  induction xs with
  | nil => exact fun g _ => ⟨[], (List.append_nil _).symm, rfl, fun _ => g.history, rfl, rfl, by simp⟩
  | cons x rest ih =>
    intro g hw
    obtain ⟨rs, h1, h2, h, h3, h4, h5⟩ := ih (g.write s.store.committed.sampling s.classFor true x)
      (fun p y => (channelsOf_written _ _ _ p y).trans (hw p y))
    refine ⟨_ :: rs, h1.trans (List.append_assoc _ _ _), by simp [h2],
      fun i => match i with | 0 => g.history | i + 1 => h i, rfl, h4, ?_⟩
    intro i y r hy hr
    cases i with
    | zero =>
      cases hy
      cases hr
      rw [hw]
      exact ⟨pointRecord_writes s window g.history x true, h3⟩
    | succ i => exact h5 i y r hy hr

/-- The flush of a segment (R90): its records, and the history that the last of them leaves. -/
theorem flush_flushes (s : State) (g : GeometryUnit) :
    ∃ rs, (g.flush s.store.committed.sampling s.classFor).out = g.out ++ rs
      ∧ s.flushes g.window g.history (g.flush s.store.committed.sampling s.classFor).history rs := by
  obtain ⟨rs, h1, h2, h⟩ := writeAll_records s g.window (g.window.filter (fun x => !x.written)) g
    (fun _ _ => rfl)
  exact ⟨rs, h1, h2, h⟩

end Sys2Proof.Machine
end

