-- ==== Sys2Proof/Laws/Ports.lean ====
section
/-! SUPPORT. What the operations on one port leave unchanged, and what each of them can do: taking a
frame, placing an item, offering a notice, refilling a transmit queue, flushing it. -/

namespace Sys2Proof.Machine

-- One proof after another, so that no thread holds a stack while it waits for another's.
set_option Elab.async false

/-! ## Placing and taking (R194) -/

@[simp] theorem PortState.readNext_link (q : PortState) : (q.readNext).link = q.link := by
  unfold PortState.readNext
  repeat' split
  all_goals rfl

@[simp] theorem PortState.readNext_framing (q : PortState) : (q.readNext).framing = q.framing := by
  unfold PortState.readNext
  repeat' split
  all_goals rfl

@[simp] theorem PortState.readNext_crc (q : PortState) : (q.readNext).crc = q.crc := by
  unfold PortState.readNext
  repeat' split
  all_goals rfl

@[simp] theorem PortState.readNext_discarded (q : PortState) : (q.readNext).discarded = q.discarded := by
  unfold PortState.readNext
  repeat' split
  all_goals rfl

@[simp] theorem PortState.readNext_stream (q : PortState) : (q.readNext).stream = q.stream := by
  unfold PortState.readNext
  repeat' split
  all_goals rfl

@[simp] theorem PortState.readNext_streamTag (q : PortState) : (q.readNext).streamTag = q.streamTag := by
  unfold PortState.readNext
  repeat' split
  all_goals rfl

@[simp] theorem PortState.readNext_pendingPause (q : PortState) : (q.readNext).pendingPause = q.pendingPause := by
  unfold PortState.readNext
  repeat' split
  all_goals rfl

@[simp] theorem PortState.readNext_mask (q : PortState) : (q.readNext).mask = q.mask := by
  unfold PortState.readNext
  repeat' split
  all_goals rfl

@[simp] theorem PortState.readNext_overrun (q : PortState) : (q.readNext).overrun = q.overrun := by
  unfold PortState.readNext
  repeat' split
  all_goals rfl

@[simp] theorem PortState.readNext_cursor (q : PortState) : (q.readNext).cursor = q.cursor := by
  unfold PortState.readNext
  repeat' split
  all_goals rfl

@[simp] theorem PortState.readNext_filter (q : PortState) : (q.readNext).filter = q.filter := by
  unfold PortState.readNext
  repeat' split
  all_goals rfl

@[simp] theorem PortState.readNext_decimation (q : PortState) : (q.readNext).decimation = q.decimation := by
  unfold PortState.readNext
  repeat' split
  all_goals rfl

@[simp] theorem PortState.readNext_txQueue (q : PortState) : (q.readNext).txQueue = q.txQueue := by
  unfold PortState.readNext
  repeat' split
  all_goals rfl

@[simp] theorem PortState.readNext_tx (q : PortState) : (q.readNext).tx = q.tx := by
  unfold PortState.readNext
  repeat' split
  all_goals rfl

@[simp] theorem PortState.readNext_reservation (q : PortState) : (q.readNext).reservation = q.reservation := by
  unfold PortState.readNext
  repeat' split
  all_goals rfl

@[simp] theorem PortState.readNext_await (q : PortState) : (q.readNext).await = q.await := by
  unfold PortState.readNext
  repeat' split
  all_goals rfl

@[simp] theorem PortState.kick_link (q : PortState) : (q.kick).link = q.link := by
  unfold PortState.kick
  repeat' split
  all_goals first | rfl | simp

@[simp] theorem PortState.kick_framing (q : PortState) : (q.kick).framing = q.framing := by
  unfold PortState.kick
  repeat' split
  all_goals first | rfl | simp

@[simp] theorem PortState.kick_crc (q : PortState) : (q.kick).crc = q.crc := by
  unfold PortState.kick
  repeat' split
  all_goals first | rfl | simp

@[simp] theorem PortState.kick_discarded (q : PortState) : (q.kick).discarded = q.discarded := by
  unfold PortState.kick
  repeat' split
  all_goals first | rfl | simp

@[simp] theorem PortState.kick_stream (q : PortState) : (q.kick).stream = q.stream := by
  unfold PortState.kick
  repeat' split
  all_goals first | rfl | simp

@[simp] theorem PortState.kick_streamTag (q : PortState) : (q.kick).streamTag = q.streamTag := by
  unfold PortState.kick
  repeat' split
  all_goals first | rfl | simp

@[simp] theorem PortState.kick_pendingPause (q : PortState) : (q.kick).pendingPause = q.pendingPause := by
  unfold PortState.kick
  repeat' split
  all_goals first | rfl | simp

@[simp] theorem PortState.kick_mask (q : PortState) : (q.kick).mask = q.mask := by
  unfold PortState.kick
  repeat' split
  all_goals first | rfl | simp

@[simp] theorem PortState.kick_overrun (q : PortState) : (q.kick).overrun = q.overrun := by
  unfold PortState.kick
  repeat' split
  all_goals first | rfl | simp

@[simp] theorem PortState.kick_cursor (q : PortState) : (q.kick).cursor = q.cursor := by
  unfold PortState.kick
  repeat' split
  all_goals first | rfl | simp

@[simp] theorem PortState.kick_filter (q : PortState) : (q.kick).filter = q.filter := by
  unfold PortState.kick
  repeat' split
  all_goals first | rfl | simp

@[simp] theorem PortState.kick_decimation (q : PortState) : (q.kick).decimation = q.decimation := by
  unfold PortState.kick
  repeat' split
  all_goals first | rfl | simp

@[simp] theorem PortState.kick_txQueue (q : PortState) : (q.kick).txQueue = q.txQueue := by
  unfold PortState.kick
  repeat' split
  all_goals first | rfl | simp

@[simp] theorem PortState.kick_reservation (q : PortState) : (q.kick).reservation = q.reservation := by
  unfold PortState.kick
  repeat' split
  all_goals first | rfl | simp

@[simp] theorem PortState.kick_await (q : PortState) : (q.kick).await = q.await := by
  unfold PortState.kick
  repeat' split
  all_goals first | rfl | simp

@[simp] theorem PortState.place_link (q : PortState) (i : ReplyItem) : (q.place i).link = q.link := by
  unfold PortState.place
  split <;> simp

@[simp] theorem PortState.place_framing (q : PortState) (i : ReplyItem) : (q.place i).framing = q.framing := by
  unfold PortState.place
  split <;> simp

@[simp] theorem PortState.place_crc (q : PortState) (i : ReplyItem) : (q.place i).crc = q.crc := by
  unfold PortState.place
  split <;> simp

@[simp] theorem PortState.place_discarded (q : PortState) (i : ReplyItem) : (q.place i).discarded = q.discarded := by
  unfold PortState.place
  split <;> simp

@[simp] theorem PortState.place_stream (q : PortState) (i : ReplyItem) : (q.place i).stream = q.stream := by
  unfold PortState.place
  split <;> simp

@[simp] theorem PortState.place_streamTag (q : PortState) (i : ReplyItem) : (q.place i).streamTag = q.streamTag := by
  unfold PortState.place
  split <;> simp

@[simp] theorem PortState.place_pendingPause (q : PortState) (i : ReplyItem) : (q.place i).pendingPause = q.pendingPause := by
  unfold PortState.place
  split <;> simp

@[simp] theorem PortState.place_mask (q : PortState) (i : ReplyItem) : (q.place i).mask = q.mask := by
  unfold PortState.place
  split <;> simp

@[simp] theorem PortState.place_overrun (q : PortState) (i : ReplyItem) : (q.place i).overrun = q.overrun := by
  unfold PortState.place
  split <;> simp

@[simp] theorem PortState.place_cursor (q : PortState) (i : ReplyItem) : (q.place i).cursor = q.cursor := by
  unfold PortState.place
  split <;> simp

@[simp] theorem PortState.place_filter (q : PortState) (i : ReplyItem) : (q.place i).filter = q.filter := by
  unfold PortState.place
  split <;> simp

@[simp] theorem PortState.place_decimation (q : PortState) (i : ReplyItem) : (q.place i).decimation = q.decimation := by
  unfold PortState.place
  split <;> simp

@[simp] theorem PortState.place_txQueue (q : PortState) (i : ReplyItem) : (q.place i).txQueue = q.txQueue := by
  unfold PortState.place
  split <;> simp

@[simp] theorem PortState.place_reservation (q : PortState) (i : ReplyItem) : (q.place i).reservation = q.reservation := by
  unfold PortState.place
  split <;> simp

@[simp] theorem PortState.place_await (q : PortState) (i : ReplyItem) : (q.place i).await = q.await := by
  unfold PortState.place
  split <;> simp

@[simp] theorem PortState.respond_link (q : PortState) (code : Byte) (tag : Word16) (c : Completion) (fs : List Field) : (q.respond code tag c fs).link = q.link := by
  exact PortState.place_link q _

@[simp] theorem PortState.respond_framing (q : PortState) (code : Byte) (tag : Word16) (c : Completion) (fs : List Field) : (q.respond code tag c fs).framing = q.framing := by
  exact PortState.place_framing q _

@[simp] theorem PortState.respond_crc (q : PortState) (code : Byte) (tag : Word16) (c : Completion) (fs : List Field) : (q.respond code tag c fs).crc = q.crc := by
  exact PortState.place_crc q _

@[simp] theorem PortState.respond_discarded (q : PortState) (code : Byte) (tag : Word16) (c : Completion) (fs : List Field) : (q.respond code tag c fs).discarded = q.discarded := by
  exact PortState.place_discarded q _

@[simp] theorem PortState.respond_stream (q : PortState) (code : Byte) (tag : Word16) (c : Completion) (fs : List Field) : (q.respond code tag c fs).stream = q.stream := by
  exact PortState.place_stream q _

@[simp] theorem PortState.respond_streamTag (q : PortState) (code : Byte) (tag : Word16) (c : Completion) (fs : List Field) : (q.respond code tag c fs).streamTag = q.streamTag := by
  exact PortState.place_streamTag q _

@[simp] theorem PortState.respond_pendingPause (q : PortState) (code : Byte) (tag : Word16) (c : Completion) (fs : List Field) : (q.respond code tag c fs).pendingPause = q.pendingPause := by
  exact PortState.place_pendingPause q _

@[simp] theorem PortState.respond_mask (q : PortState) (code : Byte) (tag : Word16) (c : Completion) (fs : List Field) : (q.respond code tag c fs).mask = q.mask := by
  exact PortState.place_mask q _

@[simp] theorem PortState.respond_overrun (q : PortState) (code : Byte) (tag : Word16) (c : Completion) (fs : List Field) : (q.respond code tag c fs).overrun = q.overrun := by
  exact PortState.place_overrun q _

@[simp] theorem PortState.respond_cursor (q : PortState) (code : Byte) (tag : Word16) (c : Completion) (fs : List Field) : (q.respond code tag c fs).cursor = q.cursor := by
  exact PortState.place_cursor q _

@[simp] theorem PortState.respond_filter (q : PortState) (code : Byte) (tag : Word16) (c : Completion) (fs : List Field) : (q.respond code tag c fs).filter = q.filter := by
  exact PortState.place_filter q _

@[simp] theorem PortState.respond_decimation (q : PortState) (code : Byte) (tag : Word16) (c : Completion) (fs : List Field) : (q.respond code tag c fs).decimation = q.decimation := by
  exact PortState.place_decimation q _

@[simp] theorem PortState.respond_txQueue (q : PortState) (code : Byte) (tag : Word16) (c : Completion) (fs : List Field) : (q.respond code tag c fs).txQueue = q.txQueue := by
  exact PortState.place_txQueue q _

@[simp] theorem PortState.respond_reservation (q : PortState) (code : Byte) (tag : Word16) (c : Completion) (fs : List Field) : (q.respond code tag c fs).reservation = q.reservation := by
  exact PortState.place_reservation q _

@[simp] theorem PortState.respond_await (q : PortState) (code : Byte) (tag : Word16) (c : Completion) (fs : List Field) : (q.respond code tag c fs).await = q.await := by
  exact PortState.place_await q _

@[simp] theorem PortState.offer_link (q : PortState) (n : Notice) : (q.offer n).link = q.link := by
  unfold PortState.offer
  repeat' split
  all_goals first | rfl | simp

@[simp] theorem PortState.offer_framing (q : PortState) (n : Notice) : (q.offer n).framing = q.framing := by
  unfold PortState.offer
  repeat' split
  all_goals first | rfl | simp

@[simp] theorem PortState.offer_crc (q : PortState) (n : Notice) : (q.offer n).crc = q.crc := by
  unfold PortState.offer
  repeat' split
  all_goals first | rfl | simp

@[simp] theorem PortState.offer_stream (q : PortState) (n : Notice) : (q.offer n).stream = q.stream := by
  unfold PortState.offer
  repeat' split
  all_goals first | rfl | simp

@[simp] theorem PortState.offer_streamTag (q : PortState) (n : Notice) : (q.offer n).streamTag = q.streamTag := by
  unfold PortState.offer
  repeat' split
  all_goals first | rfl | simp

@[simp] theorem PortState.offer_pendingPause (q : PortState) (n : Notice) : (q.offer n).pendingPause = q.pendingPause := by
  unfold PortState.offer
  repeat' split
  all_goals first | rfl | simp

@[simp] theorem PortState.offer_mask (q : PortState) (n : Notice) : (q.offer n).mask = q.mask := by
  unfold PortState.offer
  repeat' split
  all_goals first | rfl | simp

@[simp] theorem PortState.offer_overrun (q : PortState) (n : Notice) : (q.offer n).overrun = q.overrun := by
  unfold PortState.offer
  repeat' split
  all_goals first | rfl | simp

@[simp] theorem PortState.offer_cursor (q : PortState) (n : Notice) : (q.offer n).cursor = q.cursor := by
  unfold PortState.offer
  repeat' split
  all_goals first | rfl | simp

@[simp] theorem PortState.offer_filter (q : PortState) (n : Notice) : (q.offer n).filter = q.filter := by
  unfold PortState.offer
  repeat' split
  all_goals first | rfl | simp

@[simp] theorem PortState.offer_decimation (q : PortState) (n : Notice) : (q.offer n).decimation = q.decimation := by
  unfold PortState.offer
  repeat' split
  all_goals first | rfl | simp

@[simp] theorem PortState.offer_txQueue (q : PortState) (n : Notice) : (q.offer n).txQueue = q.txQueue := by
  unfold PortState.offer
  repeat' split
  all_goals first | rfl | simp

@[simp] theorem PortState.offer_reservation (q : PortState) (n : Notice) : (q.offer n).reservation = q.reservation := by
  unfold PortState.offer
  repeat' split
  all_goals first | rfl | simp

@[simp] theorem PortState.offer_await (q : PortState) (n : Notice) : (q.offer n).await = q.await := by
  unfold PortState.offer
  repeat' split
  all_goals first | rfl | simp

/-! ## Refills and flushes (R167, R168, R170) -/

@[simp] theorem PortState.overrunAt_link (q : PortState) (r : Ring) : (q.overrunAt r).link = q.link := by
  unfold PortState.overrunAt
  split <;> simp

@[simp] theorem PortState.overrunAt_framing (q : PortState) (r : Ring) : (q.overrunAt r).framing = q.framing := by
  unfold PortState.overrunAt
  split <;> simp

@[simp] theorem PortState.overrunAt_crc (q : PortState) (r : Ring) : (q.overrunAt r).crc = q.crc := by
  unfold PortState.overrunAt
  split <;> simp

@[simp] theorem PortState.overrunAt_discarded (q : PortState) (r : Ring) : (q.overrunAt r).discarded = q.discarded := by
  unfold PortState.overrunAt
  split <;> simp

@[simp] theorem PortState.overrunAt_stream (q : PortState) (r : Ring) : (q.overrunAt r).stream = q.stream := by
  unfold PortState.overrunAt
  split <;> simp

@[simp] theorem PortState.overrunAt_streamTag (q : PortState) (r : Ring) : (q.overrunAt r).streamTag = q.streamTag := by
  unfold PortState.overrunAt
  split <;> simp

@[simp] theorem PortState.overrunAt_pendingPause (q : PortState) (r : Ring) : (q.overrunAt r).pendingPause = q.pendingPause := by
  unfold PortState.overrunAt
  split <;> simp

@[simp] theorem PortState.overrunAt_mask (q : PortState) (r : Ring) : (q.overrunAt r).mask = q.mask := by
  unfold PortState.overrunAt
  split <;> simp

@[simp] theorem PortState.overrunAt_overrun (q : PortState) (r : Ring) : (q.overrunAt r).overrun = q.overrun := by
  unfold PortState.overrunAt
  split <;> simp

@[simp] theorem PortState.overrunAt_filter (q : PortState) (r : Ring) : (q.overrunAt r).filter = q.filter := by
  unfold PortState.overrunAt
  split <;> simp

@[simp] theorem PortState.overrunAt_decimation (q : PortState) (r : Ring) : (q.overrunAt r).decimation = q.decimation := by
  unfold PortState.overrunAt
  split <;> simp

@[simp] theorem PortState.overrunAt_reservation (q : PortState) (r : Ring) : (q.overrunAt r).reservation = q.reservation := by
  unfold PortState.overrunAt
  split <;> simp

@[simp] theorem PortState.overrunAt_await (q : PortState) (r : Ring) : (q.overrunAt r).await = q.await := by
  unfold PortState.overrunAt
  split <;> simp

@[simp] theorem PortState.fill_link (q : PortState) (rs : List RingRecord) : (q.fill rs).link = q.link := by
  induction rs generalizing q with
  | nil => rfl
  | cons r rs ih =>
    unfold PortState.fill
    split
    · rw [ih]; split <;> rfl
    · rfl

@[simp] theorem PortState.fill_framing (q : PortState) (rs : List RingRecord) : (q.fill rs).framing = q.framing := by
  induction rs generalizing q with
  | nil => rfl
  | cons r rs ih =>
    unfold PortState.fill
    split
    · rw [ih]; split <;> rfl
    · rfl

@[simp] theorem PortState.fill_crc (q : PortState) (rs : List RingRecord) : (q.fill rs).crc = q.crc := by
  induction rs generalizing q with
  | nil => rfl
  | cons r rs ih =>
    unfold PortState.fill
    split
    · rw [ih]; split <;> rfl
    · rfl

@[simp] theorem PortState.fill_requests (q : PortState) (rs : List RingRecord) : (q.fill rs).requests = q.requests := by
  induction rs generalizing q with
  | nil => rfl
  | cons r rs ih =>
    unfold PortState.fill
    split
    · rw [ih]; split <;> rfl
    · rfl

@[simp] theorem PortState.fill_replies (q : PortState) (rs : List RingRecord) : (q.fill rs).replies = q.replies := by
  induction rs generalizing q with
  | nil => rfl
  | cons r rs ih =>
    unfold PortState.fill
    split
    · rw [ih]; split <;> rfl
    · rfl

@[simp] theorem PortState.fill_discarded (q : PortState) (rs : List RingRecord) : (q.fill rs).discarded = q.discarded := by
  induction rs generalizing q with
  | nil => rfl
  | cons r rs ih =>
    unfold PortState.fill
    split
    · rw [ih]; split <;> rfl
    · rfl

@[simp] theorem PortState.fill_stream (q : PortState) (rs : List RingRecord) : (q.fill rs).stream = q.stream := by
  induction rs generalizing q with
  | nil => rfl
  | cons r rs ih =>
    unfold PortState.fill
    split
    · rw [ih]; split <;> rfl
    · rfl

@[simp] theorem PortState.fill_streamTag (q : PortState) (rs : List RingRecord) : (q.fill rs).streamTag = q.streamTag := by
  induction rs generalizing q with
  | nil => rfl
  | cons r rs ih =>
    unfold PortState.fill
    split
    · rw [ih]; split <;> rfl
    · rfl

@[simp] theorem PortState.fill_pendingPause (q : PortState) (rs : List RingRecord) : (q.fill rs).pendingPause = q.pendingPause := by
  induction rs generalizing q with
  | nil => rfl
  | cons r rs ih =>
    unfold PortState.fill
    split
    · rw [ih]; split <;> rfl
    · rfl

@[simp] theorem PortState.fill_mask (q : PortState) (rs : List RingRecord) : (q.fill rs).mask = q.mask := by
  induction rs generalizing q with
  | nil => rfl
  | cons r rs ih =>
    unfold PortState.fill
    split
    · rw [ih]; split <;> rfl
    · rfl

@[simp] theorem PortState.fill_overrun (q : PortState) (rs : List RingRecord) : (q.fill rs).overrun = q.overrun := by
  induction rs generalizing q with
  | nil => rfl
  | cons r rs ih =>
    unfold PortState.fill
    split
    · rw [ih]; split <;> rfl
    · rfl

@[simp] theorem PortState.fill_filter (q : PortState) (rs : List RingRecord) : (q.fill rs).filter = q.filter := by
  induction rs generalizing q with
  | nil => rfl
  | cons r rs ih =>
    unfold PortState.fill
    split
    · rw [ih]; split <;> rfl
    · rfl

@[simp] theorem PortState.fill_decimation (q : PortState) (rs : List RingRecord) : (q.fill rs).decimation = q.decimation := by
  induction rs generalizing q with
  | nil => rfl
  | cons r rs ih =>
    unfold PortState.fill
    split
    · rw [ih]; split <;> rfl
    · rfl

@[simp] theorem PortState.fill_readJob (q : PortState) (rs : List RingRecord) : (q.fill rs).readJob = q.readJob := by
  induction rs generalizing q with
  | nil => rfl
  | cons r rs ih =>
    unfold PortState.fill
    split
    · rw [ih]; split <;> rfl
    · rfl

@[simp] theorem PortState.fill_tx (q : PortState) (rs : List RingRecord) : (q.fill rs).tx = q.tx := by
  induction rs generalizing q with
  | nil => rfl
  | cons r rs ih =>
    unfold PortState.fill
    split
    · rw [ih]; split <;> rfl
    · rfl

@[simp] theorem PortState.fill_reservation (q : PortState) (rs : List RingRecord) : (q.fill rs).reservation = q.reservation := by
  induction rs generalizing q with
  | nil => rfl
  | cons r rs ih =>
    unfold PortState.fill
    split
    · rw [ih]; split <;> rfl
    · rfl

@[simp] theorem PortState.fill_await (q : PortState) (rs : List RingRecord) : (q.fill rs).await = q.await := by
  induction rs generalizing q with
  | nil => rfl
  | cons r rs ih =>
    unfold PortState.fill
    split
    · rw [ih]; split <;> rfl
    · rfl

@[simp] theorem PortState.refillQueue_link (q : PortState) (r : Ring) : (q.refillQueue r).link = q.link := by
  unfold PortState.refillQueue
  dsimp only
  repeat' split
  all_goals simp

@[simp] theorem PortState.refillQueue_framing (q : PortState) (r : Ring) : (q.refillQueue r).framing = q.framing := by
  unfold PortState.refillQueue
  dsimp only
  repeat' split
  all_goals simp

@[simp] theorem PortState.refillQueue_crc (q : PortState) (r : Ring) : (q.refillQueue r).crc = q.crc := by
  unfold PortState.refillQueue
  dsimp only
  repeat' split
  all_goals simp

@[simp] theorem PortState.refillQueue_discarded (q : PortState) (r : Ring) : (q.refillQueue r).discarded = q.discarded := by
  unfold PortState.refillQueue
  dsimp only
  repeat' split
  all_goals simp

@[simp] theorem PortState.refillQueue_stream (q : PortState) (r : Ring) : (q.refillQueue r).stream = q.stream := by
  unfold PortState.refillQueue
  dsimp only
  repeat' split
  all_goals simp

@[simp] theorem PortState.refillQueue_streamTag (q : PortState) (r : Ring) : (q.refillQueue r).streamTag = q.streamTag := by
  unfold PortState.refillQueue
  dsimp only
  repeat' split
  all_goals simp

@[simp] theorem PortState.refillQueue_pendingPause (q : PortState) (r : Ring) : (q.refillQueue r).pendingPause = q.pendingPause := by
  unfold PortState.refillQueue
  dsimp only
  repeat' split
  all_goals simp

@[simp] theorem PortState.refillQueue_mask (q : PortState) (r : Ring) : (q.refillQueue r).mask = q.mask := by
  unfold PortState.refillQueue
  dsimp only
  repeat' split
  all_goals simp

@[simp] theorem PortState.refillQueue_overrun (q : PortState) (r : Ring) : (q.refillQueue r).overrun = q.overrun := by
  unfold PortState.refillQueue
  dsimp only
  repeat' split
  all_goals simp

@[simp] theorem PortState.refillQueue_filter (q : PortState) (r : Ring) : (q.refillQueue r).filter = q.filter := by
  unfold PortState.refillQueue
  dsimp only
  repeat' split
  all_goals simp

@[simp] theorem PortState.refillQueue_decimation (q : PortState) (r : Ring) : (q.refillQueue r).decimation = q.decimation := by
  unfold PortState.refillQueue
  dsimp only
  repeat' split
  all_goals simp

@[simp] theorem PortState.refillQueue_reservation (q : PortState) (r : Ring) : (q.refillQueue r).reservation = q.reservation := by
  unfold PortState.refillQueue
  dsimp only
  repeat' split
  all_goals simp

@[simp] theorem PortState.refillQueue_await (q : PortState) (r : Ring) : (q.refillQueue r).await = q.await := by
  unfold PortState.refillQueue
  dsimp only
  repeat' split
  all_goals simp

@[simp] theorem PortState.refill_link (q : PortState) (r : Ring) : (q.refill r).link = q.link := by
  simp [PortState.refill]

@[simp] theorem PortState.refill_framing (q : PortState) (r : Ring) : (q.refill r).framing = q.framing := by
  simp [PortState.refill]

@[simp] theorem PortState.refill_crc (q : PortState) (r : Ring) : (q.refill r).crc = q.crc := by
  simp [PortState.refill]

@[simp] theorem PortState.refill_discarded (q : PortState) (r : Ring) : (q.refill r).discarded = q.discarded := by
  simp [PortState.refill]

@[simp] theorem PortState.refill_stream (q : PortState) (r : Ring) : (q.refill r).stream = q.stream := by
  simp [PortState.refill]

@[simp] theorem PortState.refill_streamTag (q : PortState) (r : Ring) : (q.refill r).streamTag = q.streamTag := by
  simp [PortState.refill]

@[simp] theorem PortState.refill_pendingPause (q : PortState) (r : Ring) : (q.refill r).pendingPause = q.pendingPause := by
  simp [PortState.refill]

@[simp] theorem PortState.refill_mask (q : PortState) (r : Ring) : (q.refill r).mask = q.mask := by
  simp [PortState.refill]

@[simp] theorem PortState.refill_overrun (q : PortState) (r : Ring) : (q.refill r).overrun = q.overrun := by
  simp [PortState.refill]

@[simp] theorem PortState.refill_filter (q : PortState) (r : Ring) : (q.refill r).filter = q.filter := by
  simp [PortState.refill]

@[simp] theorem PortState.refill_decimation (q : PortState) (r : Ring) : (q.refill r).decimation = q.decimation := by
  simp [PortState.refill]

@[simp] theorem PortState.refill_reservation (q : PortState) (r : Ring) : (q.refill r).reservation = q.reservation := by
  simp [PortState.refill]

@[simp] theorem PortState.refill_await (q : PortState) (r : Ring) : (q.refill r).await = q.await := by
  simp [PortState.refill]

@[simp] theorem PortState.refillActive_link (q : PortState) (r : Ring) : (q.refillActive r).link = q.link := by
  unfold PortState.refillActive
  split <;> simp

@[simp] theorem PortState.refillActive_framing (q : PortState) (r : Ring) : (q.refillActive r).framing = q.framing := by
  unfold PortState.refillActive
  split <;> simp

@[simp] theorem PortState.refillActive_crc (q : PortState) (r : Ring) : (q.refillActive r).crc = q.crc := by
  unfold PortState.refillActive
  split <;> simp

@[simp] theorem PortState.refillActive_discarded (q : PortState) (r : Ring) : (q.refillActive r).discarded = q.discarded := by
  unfold PortState.refillActive
  split <;> simp

@[simp] theorem PortState.refillActive_stream (q : PortState) (r : Ring) : (q.refillActive r).stream = q.stream := by
  unfold PortState.refillActive
  split <;> simp

@[simp] theorem PortState.refillActive_streamTag (q : PortState) (r : Ring) : (q.refillActive r).streamTag = q.streamTag := by
  unfold PortState.refillActive
  split <;> simp

@[simp] theorem PortState.refillActive_pendingPause (q : PortState) (r : Ring) : (q.refillActive r).pendingPause = q.pendingPause := by
  unfold PortState.refillActive
  split <;> simp

@[simp] theorem PortState.refillActive_mask (q : PortState) (r : Ring) : (q.refillActive r).mask = q.mask := by
  unfold PortState.refillActive
  split <;> simp

@[simp] theorem PortState.refillActive_overrun (q : PortState) (r : Ring) : (q.refillActive r).overrun = q.overrun := by
  unfold PortState.refillActive
  split <;> simp

@[simp] theorem PortState.refillActive_filter (q : PortState) (r : Ring) : (q.refillActive r).filter = q.filter := by
  unfold PortState.refillActive
  split <;> simp

@[simp] theorem PortState.refillActive_decimation (q : PortState) (r : Ring) : (q.refillActive r).decimation = q.decimation := by
  unfold PortState.refillActive
  split <;> simp

@[simp] theorem PortState.refillActive_reservation (q : PortState) (r : Ring) : (q.refillActive r).reservation = q.reservation := by
  unfold PortState.refillActive
  split <;> simp

@[simp] theorem PortState.refillActive_await (q : PortState) (r : Ring) : (q.refillActive r).await = q.await := by
  unfold PortState.refillActive
  split <;> simp

/-- A refill keeps a transmit queue within three items (R165, R167). -/
theorem PortState.fill_txQueue_length (q : PortState) (rs : List RingRecord)
    (h : q.txQueue.length ≤ Config.transmitCapacity) :
    (q.fill rs).txQueue.length ≤ Config.transmitCapacity := by
  induction rs generalizing q with
  | nil => exact h
  | cons r rs ih =>
    unfold PortState.fill
    split
    · rename_i hlt
      apply ih
      split
      · simpa using hlt
      · exact h
    · exact h

/-- An overrun adds at most one item, and only in mode IN_STREAM (R168). -/
theorem PortState.overrunAt_txQueue (q : PortState) (r : Ring) :
    (q.overrunAt r).txQueue
      = match q.overrun with
        | .inStream => q.txQueue ++ [.gap q.cursor (r.lostCount q.cursor)]
        | .immediate => q.txQueue := by
  unfold PortState.overrunAt
  cases q.overrun <;> simp

/-- An overrun moves the cursor to the oldest record (R168). -/
@[simp] theorem PortState.overrunAt_cursor (q : PortState) (r : Ring) :
    (q.overrunAt r).cursor = r.oldest := by
  unfold PortState.overrunAt
  split <;> simp

/-- A refill keeps a transmit queue within three items (R165, R167). -/
theorem PortState.refillQueue_txQueue_length (q : PortState) (r : Ring)
    (h : q.txQueue.length ≤ Config.transmitCapacity) :
    (q.refillQueue r).txQueue.length ≤ Config.transmitCapacity := by
  unfold PortState.refillQueue
  dsimp only
  split
  · rename_i hc
    apply PortState.fill_txQueue_length
    split
    · rw [PortState.overrunAt_txQueue]
      cases q.overrun
      · simpa using hc.2.1
      · exact h
    · exact h
  · exact h

@[simp] theorem PortState.refill_txQueue (q : PortState) (r : Ring) :
    (q.refill r).txQueue = (q.refillQueue r).txQueue := by
  simp [PortState.refill]

/-! ## What placing does (R187, R194) -/

/-- On a DOWN link an item is discarded at once (R187). -/
theorem PortState.place_down (q : PortState) (i : ReplyItem) (h : q.link = .down) : q.place i = q := by
  simp [PortState.place, h]

/-- While a frame is being sent, an item placed waits at the back of the reply queue (R194). -/
theorem PortState.place_busy (q : PortState) (i : ReplyItem) {t : Transmission} (h : q.link = .up)
    (ht : q.tx = some t) : q.place i = { q with replies := q.replies ++ [i] } := by
  simp [PortState.place, h, PortState.kick, ht]

/-- A free transmitter with an empty reply queue takes a response or a notice at once (R194). -/
theorem PortState.place_free (q : PortState) (i : ReplyItem) (h : q.link = .up) (ht : q.tx = none)
    (hr : q.replies = []) (hi : i.hasMore = false) :
    q.place i = { q with tx := some { what := .reply i, frame := i.frame } } := by
  cases q
  simp_all [PortState.place, PortState.kick]

/-- With nothing in transmission and both queues empty, the transmitter takes nothing. -/
theorem PortState.kick_idle (q : PortState) (hr : q.replies = []) (hq : q.txQueue = []) :
    q.kick = q := by
  unfold PortState.kick
  split
  · rfl
  · simp [hr, hq]

/-- A busy transmitter takes nothing. -/
theorem PortState.kick_busy (q : PortState) {t : Transmission} (h : q.tx = some t) : q.kick = q := by
  simp [PortState.kick, h]

end Sys2Proof.Machine
end

