-- ==== Sys2Proof/Laws/Lanes.lean ====
section
/-! SUPPORT. What the closing and the release of sample sets can change: the sets and lanes, the point
queue, the geometry unit's inbox, the held set, the CALIBRATION image in force and the reply queues.
Everything else stays as it is. -/

namespace Sys2Proof.Machine

-- One proof after another, so that no thread holds a stack while it waits for another's.
set_option Elab.async false

/-- The state that closing and releasing sets leaves unchanged (R64 to R67). -/
structure State.SetFrame (s t : State) : Prop where
  pending : t.pending = s.pending
  time : t.time = s.time
  tach : t.tach = s.tach
  strobe : t.strobe = s.strobe
  exc : t.exc = s.exc
  marking : t.marking = s.marking
  run : t.run = s.run
  ring : t.ring = s.ring
  resetPending : t.resetPending = s.resetPending
  committed : t.store.committed = s.store.committed
  generations : t.store.generations = s.store.generations
  installedLim : t.store.installedLim = s.store.installedLim
  stagedLim : t.store.stagedLim = s.store.stagedLim
  base : t.base = { s.base with queue := t.base.queue }
  geo : t.geo = { s.geo with inbox := t.geo.inbox }

theorem State.SetFrame.refl (s : State) : State.SetFrame s s :=
  ⟨rfl, rfl, rfl, rfl, rfl, rfl, rfl, rfl, rfl, rfl, rfl, rfl, rfl, rfl, rfl⟩

theorem State.SetFrame.trans {s t u : State} (h : State.SetFrame s t) (k : State.SetFrame t u) :
    State.SetFrame s u where
  pending := k.pending.trans h.pending
  time := k.time.trans h.time
  tach := k.tach.trans h.tach
  strobe := k.strobe.trans h.strobe
  exc := k.exc.trans h.exc
  marking := k.marking.trans h.marking
  run := k.run.trans h.run
  ring := k.ring.trans h.ring
  resetPending := k.resetPending.trans h.resetPending
  committed := k.committed.trans h.committed
  generations := k.generations.trans h.generations
  installedLim := k.installedLim.trans h.installedLim
  stagedLim := k.stagedLim.trans h.stagedLim
  base := by
    have := k.base
    rw [h.base] at this
    exact this
  geo := by
    have := k.geo
    rw [h.geo] at this
    exact this

/-- A change of the lane unit alone is within the frame. -/
theorem State.SetFrame.ofLanes (s : State) (u : LaneUnit) : State.SetFrame s { s with lanes := u } :=
  ⟨rfl, rfl, rfl, rfl, rfl, rfl, rfl, rfl, rfl, rfl, rfl, rfl, rfl, rfl, rfl⟩

/-- Notices are within the frame. -/
theorem State.SetFrame.ofNotices (s : State) (ns : List Notice) : State.SetFrame s (s.offerAll ns) := by
  constructor <;> simp

/-- The hand-over to the resampler is within the frame (R67). -/
theorem State.SetFrame.ofHandOver (s : State) (x : SampleSet) : State.SetFrame s (s.handToResampler x) :=
  ⟨rfl, rfl, rfl, rfl, rfl, rfl, rfl, rfl, rfl, rfl, rfl, rfl, rfl, rfl, rfl⟩

/-- A release is within the frame (R66). -/
theorem State.SetFrame.ofRelease (s : State) (x : SampleSet) : State.SetFrame s (s.releaseSet x) :=
  ((State.SetFrame.ofLanes s _).trans (State.SetFrame.ofNotices _ _)).trans
    (State.SetFrame.ofHandOver _ _)

/-- A chain of releases is within the frame (R65). -/
theorem State.SetFrame.ofChain (xs : List SampleSet) (s : State) :
    State.SetFrame s (s.releaseChain xs) := by
  induction xs generalizing s with
  | nil => exact .refl s
  | cons x xs ih =>
    unfold State.releaseChain
    split
    · exact (State.SetFrame.ofRelease s x).trans (ih _)
    · exact .refl s

/-- Releasing every set that is ready is within the frame (R65). -/
theorem State.SetFrame.ofReady (s : State) : State.SetFrame s s.releaseReady :=
  State.SetFrame.ofChain s.lanes.sets s

/-- The installation of a CALIBRATION image is within the frame (R51, R56). -/
theorem State.SetFrame.ofInstall (s : State) (c : CalibrationImage) :
    State.SetFrame s (s.installCalibration c) :=
  State.SetFrame.trans (t := { s with
      store := { s.store with installedCal := c, stagedCal := false }
      lanes := _ })
    ⟨rfl, rfl, rfl, rfl, rfl, rfl, rfl, rfl, rfl, rfl, rfl, rfl, rfl, rfl, rfl⟩
    (State.SetFrame.ofNotices _ _)

/-- Steps 2 to 4 of R64 are within the frame. -/
theorem State.SetFrame.ofFormed (s : State) (k : Word32) : State.SetFrame s (s.closeFormed k) := by
  unfold State.closeFormed
  split
  · exact .refl s
  · exact (State.SetFrame.ofLanes s _).trans (State.SetFrame.ofReady _)

theorem State.SetFrame.ofFormedAll (ks : List Word32) (s : State) :
    State.SetFrame s (s.closeFormedAll ks) := by
  induction ks generalizing s with
  | nil => exact .refl s
  | cons k ks ih =>
    unfold State.closeFormedAll
    split
    · exact (State.SetFrame.ofFormed s k).trans (ih _)
    · exact ih s

/-- The closing of a set is within the frame (R64). -/
theorem State.SetFrame.ofClose (s : State) (k : Word32) : State.SetFrame s (s.closeSet k) := by
  unfold State.closeSet
  dsimp only
  split
  · exact (((State.SetFrame.ofLanes s _).trans (State.SetFrame.ofInstall _ _)).trans
      (State.SetFrame.ofFormed _ k)).trans (State.SetFrame.ofFormedAll _ _)
  · exact (State.SetFrame.ofLanes s _).trans (State.SetFrame.ofFormed _ k)

theorem State.SetFrame.ofCloses (ks : List Word32) (s : State) :
    State.SetFrame s (s.closeSets ks) := by
  induction ks generalizing s with
  | nil => exact .refl s
  | cons k ks ih =>
    unfold State.closeSets
    split
    · exact (State.SetFrame.ofClose s k).trans (ih _)
    · exact ih s

/-- The taking of a strobe by the lane receivers is within the frame (R61). -/
theorem State.SetFrame.ofTake (s : State) (m : Word32) (items : StrobeItems) :
    State.SetFrame s (s.lanesTakeStrobe m items) := by
  unfold State.lanesTakeStrobe
  dsimp only
  refine State.SetFrame.trans ?_ (State.SetFrame.ofLanes _ _)
  refine State.SetFrame.trans (State.SetFrame.ofCloses
    (deadlineStrobes s.store.installedCal.assemblyWindow m s.lanes.sets) s) ?_
  split
  · exact (State.SetFrame.ofLanes _ _).trans (State.SetFrame.ofClose _ m)
  · exact State.SetFrame.ofLanes _ _

/-- A well-formed frame on a lane is within the frame (R46). -/
theorem State.SetFrame.ofFrame (s : State) (l : Lane) (q : Byte) (r : Reading) :
    State.SetFrame s (s.takeFrame l q r) := by
  unfold State.takeFrame
  dsimp only
  split
  · unfold State.fillSlot
    dsimp only
    split
    · exact (State.SetFrame.ofLanes s _).trans (State.SetFrame.ofClose _ _)
    · exact State.SetFrame.ofLanes s _
  · exact State.SetFrame.ofLanes s _
  · exact State.SetFrame.ofLanes s _

end Sys2Proof.Machine
end

