-- ==== Sys2Proof/Laws/Requests.lean ====
section
/-! SUPPORT. Dispatching and answering (R189, R190), and reading the fields of a request's body (13). -/

namespace Sys2Proof.Machine

-- One proof after another, so that no thread holds a stack while it waits for another's.
set_option Elab.async false

/-- The request that can be dispatched is the front one, under its own code (R189). -/
theorem State.frontRequest_of_canDispatch {s : State} {p : Port} {r : Request} {rest : List Request}
    (h : s.canDispatch p r rest) (code : Nat) :
    s.frontRequest p code = if r.code.toNat = code then some r else none := by
  obtain ⟨h1, h2, h3⟩ := h
  simp [State.frontRequest, State.dispatchBlocked, h1, h2, h3]

/-- With dispatching stopped, or a Read Records under execution, nothing is dispatched (R189, R198). -/
theorem State.frontRequest_of_blocked {s : State} {p : Port} (h : s.dispatchBlocked p = true)
    (code : Nat) : s.frontRequest p code = none := by
  simp [State.frontRequest, h]

/-- A request of the right code and length is executed by its owning block (R190). -/
theorem State.serve_of_length {s : State} {p : Port} {r : Request} {rest : List Request}
    {code n : Nat} {f : Request → State} (h : s.canDispatch p r rest) (hc : r.code.toNat = code)
    (hl : r.body.length = n) : s.serve p code n f = f r := by
  simp [State.serve, State.frontRequest_of_canDispatch h, hc, hl]

/-- A request of the right code and another length is answered with BAD_LENGTH (R190). -/
theorem State.serve_badLength {s : State} {p : Port} {r : Request} {rest : List Request}
    {code n : Nat} {f : Request → State} (h : s.canDispatch p r rest) (hc : r.code.toNat = code)
    (hl : r.body.length ≠ n) : s.serve p code n f = s.refuse p r .badLength := by
  simp [State.serve, State.frontRequest_of_canDispatch h, hc, hl]

/-- Without such a request at the front, nothing happens (log 2). -/
theorem State.serve_none {s : State} {p : Port} {code n : Nat} {f : Request → State}
    (h : s.frontRequest p code = none) : s.serve p code n f = s := by
  simp [State.serve, h]

theorem PerPort.set_set {α : Type} (f : PerPort α) (p : Port) (x y : α) :
    (f.set p x).set p y = f.set p y := by
  cases p <;> rfl

theorem PerPort.set_get {α : Type} (f : PerPort α) (p : Port) : f.set p (f.get p) = f := by
  cases p <;> rfl

/-- Two changes of one port are one change. -/
theorem State.modPort_modPort (s : State) (p : Port) (f g : PortState → PortState) :
    (s.modPort p f).modPort p g = s.modPort p (fun q => g (f q)) := by
  simp [State.modPort, PerPort.set_set]

/-- The answer to the front request of a port (R189, R190). -/
theorem State.answer_of_front {s : State} {p : Port} {r : Request} {rest : List Request}
    (h : (s.ports.get p).requests = r :: rest) (c : Completion) (fs : List Field) :
    s.answer p r c fs = s.replied p r rest c fs := by
  simp [State.answer, State.finishRequest, State.replied, State.modPort, PerPort.set_set, h]

/-- A reply leaves every part of the state but the ports unchanged. -/
theorem State.replied_sameParts (s : State) (p : Port) (r : Request) (rest : List Request)
    (c : Completion) (fs : List Field) : s.samePartsBut (s.replied p r rest c fs) := rfl

/-! ## Little-endian fields (13) -/

@[simp] theorem leNat_length (n v : Nat) : (leNat n v).length = n := by
  induction n generalizing v with
  | zero => rfl
  | succ n ih => simp [leNat, ih]

@[simp] theorem leInt_length (n : Nat) (v : Int) : (leInt n v).length = n := leNat_length n _

/-- Reading back a little-endian natural that fits its field. -/
theorem ofLe_leNat (n v : Nat) (h : v < 256 ^ n) : ofLe (leNat n v) = v := by
  induction n generalizing v with
  | zero => simp only [pow_zero, Nat.lt_one_iff] at h; simp [leNat, ofLe, h]
  | succ n ih =>
    have hq : v / 256 < 256 ^ n := by
      rw [Nat.div_lt_iff_lt_mul (by norm_num)]
      simpa [pow_succ] using h
    simp only [leNat, ofLe, ih _ hq, BitVec.toNat_ofNat]
    omega

/-- The bytes of fields are as many as the fields' sizes (13). -/
theorem fieldBytes_length (fs : List Field) : (fieldBytes fs).length = fieldSize fs := by
  induction fs with
  | nil => rfl
  | cons f fs ih => simp [fieldBytes, fieldSize, ih]

theorem fieldSize_append (fs gs : List Field) : fieldSize (fs ++ gs) = fieldSize fs + fieldSize gs := by
  induction fs with
  | nil => simp [fieldSize]
  | cons f fs ih => simp [fieldSize, ih, Nat.add_assoc]

/-- A field of a request's body, with the bytes before it and behind it. -/
theorem Request.field_at (c : Byte) (tag : Word16) (a b : List Byte) {off n v : Nat}
    (ha : a.length = off) (hv : v < 256 ^ n) :
    Request.field ⟨c, tag, a ++ (leNat n v ++ b)⟩ off n = v := by
  subst ha
  simp [Request.field, ofLe_leNat n v hv]

/-- A one-byte field of a request's body. -/
theorem Request.field_byte_at (c : Byte) (tag : Word16) (a b : List Byte) (x : Byte) {off : Nat}
    (ha : a.length = off) : Request.field ⟨c, tag, a ++ x :: b⟩ off 1 = x.toNat := by
  subst ha
  simp [Request.field, ofLe]

end Sys2Proof.Machine
end

