-- ==== Sys2Proof/Laws/Ring.lean ====
section
/-! SUPPORT. What the grant and the append of a record can do (R163). -/

namespace Sys2Proof.Machine

-- One proof after another, so that no thread holds a stack while it waits for another's.
set_option Elab.async false

/-- What an append leaves of the ring (steps 1 to 4 of R163). -/
@[simp] theorem Ring.append_head (r : Ring) (w : Writer) (n : Nat) (b : Record) :
    (r.append w n b).head = r.head + 1 := rfl

@[simp] theorem Ring.append_rotation (r : Ring) (w : Writer) (n : Nat) (b : Record) :
    (r.append w n b).rotation = w := rfl

/-- Below its capacity the ring keeps every record. -/
theorem Ring.append_of_room (r : Ring) (w : Writer) (n : Nat) (b : Record)
    (h : r.contents.length < Config.ringCapacity) :
    r.append w n b
      = { contents := r.contents ++ [{ sequence := r.head, run := n, body := b }]
          head := r.head + 1, oldest := r.oldest, rotation := w, granted := none } := by
  simp [Ring.append, Nat.not_le.mpr h]

/-- At its capacity the oldest record leaves first. -/
theorem Ring.append_of_full (r : Ring) (w : Writer) (n : Nat) (b : Record)
    (h : Config.ringCapacity ≤ r.contents.length) :
    r.append w n b
      = { contents := r.contents.tail ++ [{ sequence := r.head, run := n, body := b }]
          head := r.head + 1, oldest := r.oldest + 1, rotation := w, granted := none } := by
  simp [Ring.append, h]

/-- What a search among the next `n` writers answers: a writer with a record waiting, none before which has
one; or that none of them has one (R163). -/
theorem State.firstWaiting_cases (s : State) (n : Nat) (w : Writer) :
    (∃ k, k < n ∧ s.firstWaiting n w = some (Writer.next^[k] w)
      ∧ s.waiting (Writer.next^[k] w) ≠ none ∧ ∀ j, j < k → s.waiting (Writer.next^[j] w) = none)
    ∨ (s.firstWaiting n w = none ∧ ∀ j, j < n → s.waiting (Writer.next^[j] w) = none) := by
  induction n generalizing w with
  | zero => exact .inr ⟨rfl, nofun⟩
  | succ n ih =>
    unfold State.firstWaiting
    cases hw : s.waiting w with
    | some b => exact .inl ⟨0, Nat.succ_pos n, by simp, by simp [hw], nofun⟩
    | none =>
      simp only [Option.isSome_none, Bool.false_eq_true, if_false]
      rcases ih w.next with ⟨k, hk, h, hb, hn⟩ | ⟨h, hn⟩
      · refine .inl ⟨k + 1, Nat.succ_lt_succ hk, h, hb, fun j hj => ?_⟩
        cases j with
        | zero => exact hw
        | succ j => exact hn j (Nat.lt_of_succ_lt_succ hj)
      · refine .inr ⟨h, fun j hj => ?_⟩
        cases j with
        | zero => exact hw
        | succ j => exact hn j (Nat.lt_of_succ_lt_succ hj)

/-- Five steps of the rotation reach every writer. -/
theorem Writer.reached (w x : Writer) : ∃ k, k < 5 ∧ Writer.next^[k] w = x := by
  revert w x
  have h (w x : Writer) : Writer.next^[0] w = x ∨ Writer.next^[1] w = x ∨ Writer.next^[2] w = x
      ∨ Writer.next^[3] w = x ∨ Writer.next^[4] w = x := by
    cases w <;> cases x <;> decide
  intro w x
  rcases h w x with e | e | e | e | e <;> exact ⟨_, by decide, e⟩

/-- With none granted, the writer granted next has a record waiting; and where there is none, none
waits (R163). -/
theorem State.nextGrant_of_none {s : State} (h : s.ring.granted = none) :
    (∀ w, s.nextGrant = some w → s.waiting w ≠ none)
      ∧ (s.nextGrant = none → ∀ w, s.waiting w = none) := by
  simp only [State.nextGrant, h]
  rcases s.firstWaiting_cases 5 s.ring.rotation.next with ⟨k, -, e, hb, -⟩ | ⟨e, hn⟩
  · refine ⟨fun w hw => ?_, fun hw => ?_⟩
    · cases e.symm.trans hw
      exact hb
    · cases e.symm.trans hw
  · refine ⟨fun w hw => ?_, fun _ w => ?_⟩
    · cases e.symm.trans hw
    obtain ⟨k, hk, rfl⟩ := Writer.reached s.ring.rotation.next w
    exact hn k hk

/-- A grant made is kept (R163). -/
theorem State.grant_of_some {s : State} {w : Writer} (h : s.ring.granted = some w) : s.grant = s := by
  simp only [State.grant, State.nextGrant, h]
  rw [← h]

/-- A grant changes what no writer has waiting. -/
@[simp] theorem State.grant_waiting (s : State) (w : Writer) : s.grant.waiting w = s.waiting w := by
  cases w <;> rfl

/-- After a grant the order at the append port holds, where every writer granted before has its record
waiting still (R163). -/
theorem State.grant_law (s : State) (h : ∀ w, s.ring.granted = some w → s.waiting w ≠ none) :
    s.grant.GrantLaw := by
  cases hg : s.ring.granted with
  | some w =>
    rw [State.grant_of_some hg]
    exact ⟨h, fun e => absurd (hg.symm.trans e) (by simp)⟩
  | none => simpa [State.GrantLaw] using State.nextGrant_of_none hg

/-- The evaluation or the truncation in progress that goes on changes the exceedance unit, the marking unit
and the store alone (R101, R115, R129). -/
theorem State.goOn_frame (s : State) :
    s.goOn = { s with exc := s.goOn.exc, marking := s.goOn.marking, store := s.goOn.store } := by
  unfold State.goOn
  split
  · rfl
  · rfl
  · unfold State.truncateFrom
    dsimp only
    split <;> rfl

/-- Telling a writer changes the ring, the ports and the lanes in nothing; the store changes only where a
truncation goes on. -/
theorem State.tellWriter_kept (s : State) (w : Writer) :
    (s.tellWriter w).ring = s.ring ∧ (s.tellWriter w).ports = s.ports
      ∧ (w ≠ .exceedance → (s.tellWriter w).store = s.store) ∧ (s.tellWriter w).lanes = s.lanes
      ∧ (s.tellWriter w).tach = s.tach ∧ (s.tellWriter w).resetPending = s.resetPending := by
  cases w with
  | exceedance =>
    simp only [State.tellWriter]
    rw [State.goOn_frame]
    exact ⟨rfl, rfl, fun h => absurd rfl h, rfl, rfl, rfl⟩
  | geometry | marking | base | runControl => exact ⟨rfl, rfl, fun _ => rfl, rfl, rfl, rfl⟩

end Sys2Proof.Machine
end

