-- ==== Sys2Proof/Laws/Sequences.lean ====
section
/-! SUPPORT. The model's loops, said as the claims say them: the points of a strobe, the closings of sets
and the installation of a CALIBRATION image, the records a refill copies, and the trackers a Read Status lists. -/

namespace Sys2Proof.Machine

-- One proof after another, so that no thread holds a stack while it waits for another's.
set_option Elab.async false

/-- The generation of `n` points from `j` on, one after another (R23). -/
theorem generateFrom_eq_foldl (sam : SamplingImage) (o : OdometryImage) (k : Word32) (left right : Int)
    (n : Nat) : ∀ (b : DistanceBase) (j : Nat),
    b.generateFrom sam o k left right j n
      = (List.range' j n).foldl (fun b j => b.generate sam o k left right j) b := by
  induction n with
  | zero => exact fun b j => rfl
  | succ n ih => exact fun b j => ih _ _

/-- The points that a strobe generates: those with H < j × I_µ ≤ R (R23). -/
theorem mem_newPoints (sam : SamplingImage) (high r : Int) (hi : 0 < intervalMicrons sam)
    (hh : 0 ≤ high) (j : Nat) :
    j ∈ List.range' (firstNewPoint sam high) (newPoints sam high r)
      ↔ high < j * intervalMicrons sam ∧ j * intervalMicrons sam ≤ r := by
  have h1 : high < j * intervalMicrons sam ↔ high / intervalMicrons sam < j :=
    (Int.ediv_lt_iff_lt_mul hi).symm
  have h2 : (j : Int) * intervalMicrons sam ≤ r ↔ (j : Int) ≤ r / intervalMicrons sam :=
    (Int.le_ediv_iff_mul_le hi).symm
  have h3 : 0 ≤ high / intervalMicrons sam := Int.ediv_nonneg hh hi.le
  rw [h1, h2, List.mem_range'_1]
  unfold firstNewPoint newPoints
  omega

/-- The records that the repetition of a refill copies: those that pass among the first `n`, with `n` the
first place where the queue is full (R166, R167). -/
theorem fill_copies (own : PortState) (rs : List RingRecord) : ∀ q : PortState,
    q.filter = own.filter → q.decimation = own.decimation → q.txQueue.length ≤ 3 →
    ∃ n, n ≤ rs.length
      ∧ (∀ m, m < n → q.txQueue.length + ((rs.take m).filter own.passes).length < 3)
      ∧ q.fill rs = { q with
          cursor := q.cursor + BitVec.ofNat 32 n
          txQueue := q.txQueue ++ ((rs.take n).filter own.passes).map .record }
      ∧ ((q.fill rs).txQueue.length = 3 ∨ n = rs.length) := by
  induction rs with
  | nil => exact fun q _ _ _ => ⟨0, le_refl _, by simp, by simp [PortState.fill], .inr rfl⟩
  | cons r rest ih =>
    intro q hf hd hl
    have hp : q.passes r = own.passes r := by simp [PortState.passes, hf, hd]
    have next (n : Nat) : (1#32 + BitVec.ofNat 32 n) = BitVec.ofNat 32 (n + 1) := by
      rw [BitVec.add_comm, BitVec.ofNat_add]
    unfold PortState.fill
    by_cases h3 : q.txQueue.length < 3
    · rw [if_pos (show q.txQueue.length < Config.transmitCapacity from h3), hp]
      obtain ⟨n, n1, n2, n3, n4⟩ :=
        ih (if own.passes r = true
          then { q with cursor := q.cursor + 1, txQueue := q.txQueue ++ [.record r] }
          else { q with cursor := q.cursor + 1 })
        (by split <;> exact hf) (by split <;> exact hd) (by split <;> simp <;> omega)
      refine ⟨n + 1, Nat.succ_le_succ n1, ?_, ?_, n4.imp_right (congrArg (· + 1))⟩
      · intro m hm
        cases m with
        | zero => simpa using h3
        | succ m =>
          have := n2 m (by omega)
          by_cases hps : own.passes r = true <;> simp [hps] at this ⊢ <;> omega
      · refine n3.trans ?_
        by_cases hps : own.passes r = true <;> simp [hps, BitVec.add_assoc, next]
    · rw [if_neg (show ¬ q.txQueue.length < Config.transmitCapacity from h3)]
      exact ⟨0, Nat.zero_le _, fun m hm => absurd hm (Nat.not_lt_zero m), by simp, .inl (by omega)⟩

/-- The closing of the first set of a strobe under the image in force (R64). -/
theorem closeFormed_eq (s : State) (k : Word32) (x : SampleSet)
    (h : s.lanes.sets.find? (fun z => z.strobe == k) = some x) :
    s.closeFormed k = State.releaseReady (s.withClosed s.store.installedCal x) := by
  have hk : x.strobe = k := by simpa using List.find?_some h
  subst hk
  unfold State.closeFormed
  rw [h]
  simp only
  unfold State.withClosed SampleSet.recentEntry SampleSet.filled PerLane.map SampleSet.formed updateSet
    SampleSet.filled PerLane.map
  simp only [Option.not_isSome]

/-- Releasing what is ready keeps the CALIBRATION image in force. -/
theorem releaseChain_store (xs : List SampleSet) (s : State) : (s.releaseChain xs).store = s.store := by
  induction xs generalizing s with
  | nil => rfl
  | cons x rest ih =>
    unfold State.releaseChain
    split
    · exact (ih _).trans (by simp [State.releaseSet, State.handToResampler])
    · rfl

/-- The notices of lane changes as the part raises them (R57; log 5). -/
theorem laneNotices_eq (before after : PerLane LaneReceiver) :
    laneNotices before after = laneChanges before after := by
  unfold laneNotices laneChanges laneNotice
  simp only [List.filterMap_cons, List.filterMap_nil, PerLane.get]
  by_cases h0 : before.sl0.state = after.sl0.state <;> by_cases h1 : before.sl1.state = after.sl1.state
    <;> by_cases h2 : before.sl2.state = after.sl2.state
    <;> by_cases h3 : before.sl3.state = after.sl3.state <;> simp [h0, h1, h2, h3]

/-- Notices offered to every port, one after another, change the ports alone (R195). -/
theorem offerAll_eq (ns : List Notice) : ∀ s : State,
    s.offerAll ns = { s with ports := s.portsOffered ns } := by
  induction ns with
  | nil => exact fun s => rfl
  | cons n rest ih => exact fun s => ih (s.offer n)

/-- A lane receiver when one lane mode is installed in place of another (R56). -/
theorem changeMode_eq (r : LaneReceiver) (before after : LaneMode) : r.changeMode before after
    = if before = after then r
      else if after = .forceOff then { r with state := .off, hits := 0, misses := 0 }
      else if r.state = .off then { r with state := .seeking, hits := 0, misses := 0 } else r := by
  unfold LaneReceiver.changeMode
  cases after <;> rfl

/-- The installation of a CALIBRATION image (R51, R56, R57). -/
theorem installCalibration_installs (s : State) (c : CalibrationImage) :
    s.installs (s.installCalibration c) c := by
  refine ⟨changeModes s.lanes.lane s.store.installedCal.modes c.modes, ?_, ?_⟩
  · intro l
    cases l <;> exact changeMode_eq _ _ _
  · unfold State.installCalibration
    rw [offerAll_eq, laneNotices_eq]
    have drop (x : SampleSet) (a b : PerLane LaneReceiver) : x.dropLanes a b
        = if x.condition = .opened then
            { x with awaited := ⟨x.awaited.sl0 && decide (a.sl0.state = .off ∨ b.sl0.state ≠ .off),
              x.awaited.sl1 && decide (a.sl1.state = .off ∨ b.sl1.state ≠ .off),
              x.awaited.sl2 && decide (a.sl2.state = .off ∨ b.sl2.state ≠ .off),
              x.awaited.sl3 && decide (a.sl3.state = .off ∨ b.sl3.state ≠ .off)⟩ } else x := by
      have keeps (a b : LaneReceiver) :
          keepsAwaited a b = decide (a.state = .off ∨ b.state ≠ .off) := by
        unfold keepsAwaited
        cases a.state <;> cases b.state <;> decide
      unfold SampleSet.dropLanes
      cases hc : x.condition <;> simp [keeps]
    simp only [drop]
    rfl

/-- The forming and closing of the first set of a strobe under the image in force (R64). -/
theorem closeFormed_forms (s : State) (k : Word32) (h : ∃ x ∈ s.lanes.sets, x.strobe = k) :
    State.formsSet s.store.installedCal s k (s.closeFormed k) := by
  have hs : (s.lanes.sets.find? (fun z => z.strobe == k)).isSome = true := by
    simpa using h
  obtain ⟨y, hy⟩ := Option.isSome_iff_exists.1 hs
  exact ⟨y, hy, closeFormed_eq s k y hy⟩

/-- Closing a set keeps the CALIBRATION image in force. -/
theorem closeFormed_installedCal (s : State) (k : Word32) :
    (s.closeFormed k).store.installedCal = s.store.installedCal := by
  unfold State.closeFormed
  split
  · rfl
  · exact congrArg Store.installedCal (releaseChain_store _ _)

/-- Whether a set of a strobe is OPEN, as the model asks. -/
theorem any_isOpen (s : State) (k : Word32) :
    s.lanes.sets.any (fun x => x.strobe == k && x.isOpen) = true
      ↔ ∃ x ∈ s.lanes.sets, x.strobe = k ∧ x.condition = .opened := by
  simp [SampleSet.isOpen]

/-- Closings one after another, from what one closing does to a state that keeps a property. -/
theorem closesEach_of (closing : State → Word32 → State → Prop) (f : State → Word32 → State)
    (g : State → List Word32 → State) (keeps : State → Prop)
    (g0 : ∀ s, g s [] = s)
    (g1 : ∀ s k ks, g s (k :: ks) = g (if s.lanes.sets.any (fun x => x.strobe == k && x.isOpen)
      then f s k else s) ks)
    (hf : ∀ s k, keeps s → keeps (f s k))
    (hc : ∀ s k, keeps s → (∃ x ∈ s.lanes.sets, x.strobe = k ∧ x.condition = .opened) →
      closing s k (f s k)) (ks : List Word32) :
    ∀ s, keeps s → State.closesEach closing ks s (g s ks) := by
  induction ks with
  | nil => exact fun s _ => ⟨fun _ => s, rfl, (g0 s).symm, by simp⟩
  | cons k rest ih =>
    intro s hs
    obtain ⟨y, y0, y1, y2⟩ := ih (if s.lanes.sets.any (fun x => x.strobe == k && x.isOpen)
      then f s k else s) (by split; exacts [hf s k hs, hs])
    refine ⟨fun i => match i with | 0 => s | i + 1 => y i, rfl, y1.trans (g1 s k rest).symm, ?_⟩
    intro i k' hk
    cases i with
    | zero =>
      cases hk
      refine ⟨fun ho => ?_, fun hn => ?_⟩
      · rw [if_pos ((any_isOpen s k).2 ho)] at y0
        show closing s k (y 0)
        exact y0 ▸ hc s k hs ho
      · rw [if_neg (fun h => ?_)] at y0
        · exact y0
        · obtain ⟨x, hx, h1, h2⟩ := (any_isOpen s k).1 h
          exact hn x hx h1 h2
    | succ i => exact y2 i k' hk

/-- The closings that an installation has made due, one after another (R62, R64; log 22). -/
theorem closeFormedAll_closesEach (c : CalibrationImage) (ks : List Word32) (s : State)
    (h : s.store.installedCal = c) :
    State.closesEach (State.formsSet c) ks s (s.closeFormedAll ks) :=
  closesEach_of (State.formsSet c) State.closeFormed State.closeFormedAll
    (fun s => s.store.installedCal = c) (fun _ => rfl) (fun _ _ _ => rfl)
    (fun s k hs => (closeFormed_installedCal s k).trans hs)
    (fun s k hs ⟨x, hx, hk, _⟩ => hs ▸ closeFormed_forms s k ⟨x, hx, hk⟩) ks s h

/-- The sets that are complete (R62). -/
theorem completeStrobes_eq (s : State) : completeStrobes s.lanes.sets = s.completeSets := by
  unfold completeStrobes State.completeSets
  congr 2
  funext x
  have : x.isOpen = decide (x.condition = .opened) := by
    unfold SampleSet.isOpen
    cases x.condition <;> rfl
  rw [this]
  simp [SampleSet.complete, PerLane.subset, SampleSet.filled, PerLane.map, PerLane.get, Bool.and_assoc]

/-- Forming a set does not depend on its having been OPEN. -/
theorem formsSet_notOpen (s t : State) (k : Word32) (c : CalibrationImage)
    (h : State.formsSet c (s.notOpen k) k t) : State.formsSet c s k t := by
  obtain ⟨x, hx, ht⟩ := h
  unfold State.notOpen at hx
  simp only [List.find?_map] at hx
  have : ((fun z : SampleSet => z.strobe == k)
      ∘ fun x => if x.strobe = k then { x with condition := .closed } else x)
      = fun z => z.strobe == k := by
    funext z
    simp only [Function.comp]
    split <;> rfl
  rw [this] at hx
  obtain ⟨y, hy, rfl⟩ := Option.map_eq_some_iff.1 hx
  have hk : y.strobe = k := by simpa using List.find?_some hy
  refine ⟨y, hy, ht.trans (congrArg State.releaseReady ?_)⟩
  rw [if_pos hk]
  unfold State.withClosed State.notOpen
  simp only [List.map_map]
  congr 2
  apply List.map_congr_left
  intro z _
  simp only [Function.comp]
  by_cases hz : z.strobe = k <;> simp [hz, hk]

/-- The closing of a set (R64). -/
theorem closeSet_closes (s : State) (k : Word32) (h : ∃ x ∈ s.lanes.sets, x.strobe = k) :
    s.closesSet k (s.closeSet k) := by
  have hn : ∃ x ∈ (s.notOpen k).lanes.sets, x.strobe = k := by
    obtain ⟨x, hx, hk⟩ := h
    exact ⟨_, List.mem_map_of_mem hx, by simp [hk]⟩
  unfold State.closeSet
  constructor <;> intro hs <;> simp only [hs, Bool.false_eq_true, if_false, if_true]
  · exact formsSet_notOpen s _ k _ (closeFormed_forms (s.notOpen k) k hn)
  · have hi := installCalibration_installs (s.notOpen k) s.store.committed.calibration
    have hc : ((s.notOpen k).installCalibration s.store.committed.calibration).store.installedCal
        = s.store.committed.calibration := by
      obtain ⟨lane, _, he⟩ := hi
      rw [he]
    refine ⟨_, State.closeFormed ((s.notOpen k).installCalibration s.store.committed.calibration) k, hi, ?_, ?_⟩
    · have := closeFormed_forms ((s.notOpen k).installCalibration s.store.committed.calibration) k (by
        obtain ⟨x, hx, hk⟩ := hn
        obtain ⟨lane, _, he⟩ := hi
        rw [he]
        refine ⟨_, List.mem_map_of_mem hx, ?_⟩
        split <;> exact hk)
      rwa [hc] at this
    · rw [← completeStrobes_eq]
      exact closeFormedAll_closesEach _ _ _ ((closeFormed_installedCal _ _).trans hc)

/-- The closings of a strobe's deadlines (R63, R64). -/
theorem closeSets_closesEach (ks : List Word32) (s : State) :
    State.closesEach State.closesSet ks s (s.closeSets ks) :=
  closesEach_of State.closesSet State.closeSet State.closeSets (fun _ => True) (fun _ => rfl)
    (fun _ _ _ => rfl) (fun _ _ _ => trivial)
    (fun s k _ ⟨x, hx, hk, _⟩ => closeSet_closes s k ⟨x, hx, hk⟩) ks s trivial

/-- The values of the OPEN trackers, in tracker order (R135). -/
theorem trackersStatus_eq (ts : List Tracker) : ∀ i, trackersStatus i ts
    = (List.range ts.length).flatMap (fun j => match ts[j]? with
      | some (some g) => [natField 1 ((i + j) / 2), natField 1 ((i + j) % 2), natField 1 g.level,
          natField 4 g.startPoint, natField 4 g.endPoint, flagField g.urgent]
      | _ => []) := by
  induction ts with
  | nil => exact fun i => rfl
  | cons t ts ih =>
    intro i
    rw [trackersStatus, ih, List.length_cons, List.range_succ_eq_map, List.flatMap_cons,
      List.flatMap_map]
    congr 1
    · cases t with
      | none => rfl
      | some g =>
        have : (trackerSense i).code = i % 2 := by
          unfold trackerSense
          split <;> simp [Sense.code] <;> omega
        simp [trackerStatus, trackerChannel, this]
    · simp [Nat.add_assoc, Nat.add_comm 1]

end Sys2Proof.Machine
end

