-- ==== Sys2Proof/Laws/Turns.lean ====
section
/-! SUPPORT. What the trackers acting in turn can do (R115, R127, R129). -/

namespace Sys2Proof.Machine

-- One proof after another, so that no thread holds a stack while it waits for another's.
set_option Elab.async false

/-- What acting in turn from a state leaves of it. -/
theorem State.actFrom_actsTo (s : State) (act : Nat → Tracker → Tally → Tracker × Tally) (next : Nat)
    (rest : Nat → Turn) (h : next ≤ s.exc.trackers.length) :
    s.actsTo (s.actFrom act next rest) act next rest := by
  obtain ⟨k, ys, hk, h0, hact, hd, h2, he⟩ :=
    actInTurn_cases act next (s.exc.trackers.drop next) (s.exc.tally s.marking)
  generalize hr : actInTurn act next (s.exc.trackers.drop next) (s.exc.tally s.marking) = r at *
  have hlen : (s.exc.trackers.drop next).length = s.exc.trackers.length - next := List.length_drop
  have htake : (s.exc.trackers.take next).length = next := by rw [List.length_take]; omega
  have hl := s.actFrom_length act next rest
  have ht : s.actFrom act next rest = { s with
      exc := s.exc.settle (s.exc.trackers.take next ++ r.1) r.2.1
        (if r.2.2 < (s.exc.trackers.take next ++ r.1).length then some (rest r.2.2) else none)
      marking := r.2.1.marking } := by
    unfold State.actFrom
    rw [hr]
  rw [ht] at hl ⊢
  simp only [ExceedanceUnit.settle] at hl ⊢
  rw [hl, h2]
  refine ⟨next + k, fun n => ys (n - next), by omega, by omega, ?_, ?_, hl, ?_, ?_, ?_⟩
  · simp [h0, ExceedanceUnit.tally]
  · simp
  · intro i before after hb ha
    refine ⟨fun ⟨h1, h3⟩ => ?_, fun h1 => ?_⟩
    · have hi : next + (i - next) = i := by omega
      obtain ⟨ho, t', ht', hac⟩ := hact (i - next) before (by omega)
        (by rw [List.getElem?_drop, hi]; exact hb)
      rw [List.getElem?_append_right (by omega), htake, ht'] at ha
      cases ha
      refine ⟨ho, ?_⟩
      rw [hi] at hac
      simp only [hac, show i + 1 - next = i - next + 1 by omega]
    · rcases h1 with h1 | h1
      · rw [List.getElem?_append_left (by omega), List.getElem?_take_of_lt h1, hb] at ha
        exact (Option.some.inj ha).symm
      · rw [List.getElem?_append_right (by omega), htake] at ha
        have := congrArg (fun l => l[i - next - k]?) hd
        simp only [List.getElem?_drop] at this
        rw [show k + (i - next - k) = i - next by omega, show next + (i - next) = i by omega, hb, ha] at this
        exact Option.some.inj this
  · intro hn
    refine ⟨?_, by rw [if_pos hn]⟩
    rcases he with he | he
    · omega
    · exact he
  · intro hn
    rw [if_neg (by omega)]

end Sys2Proof.Machine
end

