-- ==== Sys2Proof/WellFormed.lean ====
section
/-! DEFINITION. Which commands are well formed. The operands are typed names, levels and bytes, so
the one thing left to check is that a frame delivered whole holds at least one byte: an empty
delivery states no kind (R45) and no sync byte (R188). `exec` gives ill-formed commands a meaning
too: an empty frame fails the frame's first check (log 17). -/

namespace Sys2Proof

/-- A command is well formed when the frame it delivers, if it delivers one, is not empty. -/
def Instr.wellFormed : Instr → Bool
  | .laneFrame _ bytes => !bytes.isEmpty
  | .linkFrame _ bytes => !bytes.isEmpty
  | .resetLine | .resetPart _ | .pulseCandidate _ _ | .pulseAccept _ | .glitch _ | .sampleStrobe
  | .distanceBaseStrobe | .distanceStrobeEnd _ | .markerPulseEnd | .spatialSampleTake | .ringAppend
  | .pointEvaluation | .truncation | .lossOfSignal _ | .transmitFrameEnd _ | .unknownRequest _
  | .identify _ | .readStatus _ | .setPortOptions _ | .readSettings _ | .commitSettings _
  | .awaitChange _ | .runStart _ | .geometryRunStart | .exceedanceRunStart | .markingRunStart
  | .distanceBaseRunStart | .runPause _ | .geometryRunPause | .flushFinished | .truncationFinished
  | .runResume _ | .geometryRunResume | .runEnd _ | .distanceBaseRunEnd | .runOperationComplete
  | .positionFix _ | .classChange _ | .manualMark _ | .streamStart _ | .streamPause _
  | .streamResume _ | .streamStop _ | .readRecords _ | .readLaneHealth _ | .clearLaneFlags _
  | .readLaneSample _ => true

end Sys2Proof
end

