-- ==== Sys2Proof/Tests/Slice0.lean ====
section
/-! SUPPORT. The model against the spec's worked examples, and for every statement with hypotheses a
state and operands that meet them. Expected values are those of the spec's tables; where a value is
worked out by hand from a rule, the docstring names the rule. -/

namespace Sys2Proof.Tests
open Sys2Proof Sys2Proof.Machine

-- One proof after another, so that no thread holds a stack while it waits for another's.
set_option Elab.async false

/-! ## Small states -/

/-- The part after reset with port P0's state replaced. -/
def atP0 (q : PortState) : State := { State.reset with ports := ⟨q, resetPort .down, resetPort .down⟩ }

/-- A port whose link is UP and whose request queue holds one request. -/
def asked (r : Request) : PortState := { resetPort .up with requests := [r] }

/-- The part after reset with one request at P0. -/
def asking (r : Request) : State := atP0 (asked r)

/-- `s` in a run: RUNNING, with last point `j`. -/
def inRun (s : State) (j : Nat) : State :=
  { s with
    run := { s.run with state := .running, number := 1 }
    base := { s.base with running := true, last := j, high := j * 250000 } }

/-- `s` with an operation in progress at a stage. -/
def withOp (s : State) (what : RunOperation) (stage : Stage) : State :=
  { s with run := { s.run with op := some ⟨.p0, 7, .running, what, stage⟩ } }

/-- The state a command answers. -/
def after (o : Host.Outcome State Fault Refusal) : State :=
  match o with
  | .next t => t
  | _ => State.reset

/-- The completion code and the fields of the response that P0 is sending. -/
def answerAt (o : Host.Outcome State Fault Refusal) : Option (Completion × List Field) :=
  match (after o).ports.p0.tx with
  | some ⟨.reply (.response r), _⟩ => some (r.completion, r.fields)
  | _ => none

/-! ## Well-formed commands -/

theorem test_wf_refuses_empty_laneFrame : (Instr.laneFrame .sl0 []).wellFormed = false := rfl

theorem test_wf_accepts_laneFrame : (Instr.laneFrame .sl0 [1]).wellFormed = true := rfl

theorem test_wf_refuses_empty_linkFrame : (Instr.linkFrame .p0 []).wellFormed = false := rfl

theorem test_wf_accepts_linkFrame : (Instr.linkFrame .p0 [0xC5]).wellFormed = true := rfl

/-- No row of the table gives bits, so no word spells a command. -/
theorem test_no_word_spells_a_command : decodeTableWord 8 1 = none := rfl

/-! ## Bytes and frames (13) -/

/-- The worked value of R45: over the nine bytes 0x31 to 0x39 the CRC-16 is 0x29B1. -/
theorem test_crc_check : crc16 [0x31, 0x32, 0x33, 0x34, 0x35, 0x36, 0x37, 0x38, 0x39] = 0x29B1 := by
  decide +kernel

/-- A frame with another sync byte is a framing error (R188). -/
theorem test_linkFrame_bad_sync :
    checkLinkFrame [0xC4, 1, 1, 0, 0, 0, 0, 0, 0] = .framing := by decide

/-- The field indices of the two invalid images of 6.2. -/
theorem test_threshold_indices :
    thresholdIndex 4 1 .upper 2 = 103 ∧ thresholdIndex 0 0 .lower 1 = 3 := by decide

/-- The first invalid image of 6.2: the level-2 threshold below the level-1 threshold is bad. -/
theorem test_bad_threshold_order :
    badThreshold (((List.replicate 224 (-32768 : Int)).set 102 600).set 103 500) 103 = true
      ∧ badThreshold (((List.replicate 224 (-32768 : Int)).set 102 600).set 104 900) 104 = false := by
  decide

/-- The second invalid image of 6.2: the lower threshold equal to the upper one is bad. -/
theorem test_bad_threshold_sides :
    badThreshold (((List.replicate 224 (-32768 : Int)).set 0 200).set 3 200) 3 = true := by decide

/-! ## Tachometers and travel (01) -/

/-- An ODOMETRY image whose increment is the pulse count, in µm. -/
def unitOdometry : OdometryImage :=
  { defaultOdometry with pulsesPerRev := 1000, circumference := 1000 }

/-- A tachometer with pulses accepted since the last strobe. -/
def turned (n : Int) : Tach := { resetTach with pulses := n, seen := n != 0 }

/-- A tachometer unit before a strobe. -/
def twoTachs (a b : Tach) : TachUnit := { resetTachUnit with units := ⟨a, b⟩ }

/-- The example of 1.2: a pulse of 2822.265625 µm, forward to 4 and then back to −3. -/
theorem test_increment_rounds_down :
    Tach.increment { resetTach with pulses := 4, latched := 3 }
        { defaultOdometry with pulsesPerRev := 1024 } = 2823
      ∧ Tach.increment { resetTach with pulses := -3, latched := 4 }
        { defaultOdometry with pulsesPerRev := 1024 } = -19756 := by decide

/-- A direction conflict gives 0 and its flag (R6); it is not a tach-failed strobe. -/
theorem test_strobe_conflict :
    let i := ((twoTachs (turned 40) (turned (-3))).takeStrobe unitOdometry 500 1).2.1
    i.delta = 0 ∧ i.flags.conflict = true ∧ i.flags.tachFailed = false := by decide

/-- The slide of 1.3 at strobe k+1: 45,000 and 39,000 at 2000 Hz, disagreeing. -/
theorem test_strobe_slide :
    let i := ((twoTachs (turned 45000) (turned 39000)).takeStrobe unitOdometry 500 1).2.1
    i.delta = 45000 ∧ i.flags.disagreement = true ∧ i.flags.overSpeed = false := by decide

/-- The clamp at 2000 Hz is 69,500 µm and sets its flag beyond it only (R8). -/
theorem test_strobe_clamp :
    let i (n : Int) := ((twoTachs (turned n) (turned n)).takeStrobe unitOdometry 500 1).2.1
    (i 69500).delta = 69500 ∧ (i 69500).flags.overSpeed = false
      ∧ (i (-69501)).delta = -69500 ∧ (i (-69501)).flags.overSpeed = true := by decide

/-- With one tachometer HEALTHY its increment is used and tach-failed is set (R7). -/
theorem test_strobe_one_healthy :
    let i := ((twoTachs { turned 10 with health := .failed } (turned 7)).takeStrobe unitOdometry 500 1).2.1
    i.delta = 7 ∧ i.flags.tachFailed = true := by decide

/-- The failure of 1.4: at a silent distance of 2,025,000 µm a HEALTHY tachometer fails (R10, R11). -/
theorem test_tach_fails :
    ((twoTachs (turned 45000) { resetTach with silent := 1980000 }).takeStrobe unitOdometry 500
      1).1.units.b.health = .failed := by decide

/-- The last comparison of a recovery: the 256th, with travel, makes it HEALTHY (R13). -/
theorem test_tach_recovers :
    ((twoTachs (turned 45000) { turned 45000 with health := .recovering, recovery := 255 }).takeStrobe
      unitOdometry 500 1).1.units.b.health = .healthy := by decide

/-- The speeds of 1.5: 324.0 km/h over 64 strobes and 0.9 km/h over one strobe of 123 µm. -/
theorem test_speed :
    windowSpeed (0 :: List.replicate 64 2880000) 2880000 500 = 3240
      ∧ windowSpeed [0, 123] 123 500 = 9 := by decide

/-- An accepted pulse with the low level is forward, and backward under REVERSE (R2). -/
theorem test_pulseAccept_direction :
    (Tach.acceptPulse { resetTach with candidate := some ⟨4, false, false⟩ }).pulses = 1
      ∧ (Tach.acceptPulse { resetTach with candidate := some ⟨4, true, false⟩ }).pulses = -1 := by decide

/-- A glitch is counted and saturates (R1). -/
theorem test_glitch_saturates :
    (Tach.dropPulse { resetTach with candidate := some ⟨4, false, false⟩, glitches := 65535 }).glitches
      = 65535 := by decide

/-! ## Points and track position (02) -/

/-- SAMPLING with an interval of 100 mm. -/
def hundred : SamplingImage := { defaultSampling with interval := 100 }

/-- The third strobe of the example of 2.2: points 3 and 4 between 278,000 and 417,000. -/
theorem test_two_points_in_a_strobe :
    let b := { resetBase with running := true, high := 278000, last := 2 }.takeItems hundred
      defaultOdometry { strobeZeroItems with strobe := 3, delta := 139000, net := 417000 }
    b.queue.map PointEntry.target = [300000, 400000] ∧ b.last = 4 ∧ b.high = 417000
      ∧ b.queue.map PointEntry.left = [278000, 278000] := by decide

/-- Strobe a+5 of the reversal of 2.2: at a target already reached nothing is generated. -/
theorem test_reversal_generates_nothing :
    let b := { resetBase with running := true, high := 1020000, last := 4 }.takeItems defaultSampling
      defaultOdometry { strobeZeroItems with strobe := 5, delta := 60000, net := 1000000 }
    b.queue = [] ∧ b.high = 1020000 := by decide

/-- ODOMETRY with the fix mode BLEND of the example of 2.4. -/
def blended : OdometryImage := { defaultOdometry with fixMode := .blend, blendRate := 10 }

/-- Point 401 of the example of 2.4. -/
theorem test_blend_point :
    let b := { resetBase with offset := 12000000, correction := 80 }.generate defaultSampling blended 9
      100000000 100250000 401
    b.queue.map PointEntry.position = [12100260] ∧ b.offset = 12000010 ∧ b.correction = 70 := by decide

/-- Point 405 of the example of 2.4: the whole of a small negative correction. -/
theorem test_blend_negative :
    let b := { resetBase with offset := 12000040, correction := -10 }.generate defaultSampling blended 9
      101000000 101250000 405
    b.queue.map PointEntry.position = [12101280] ∧ b.correction = 0 := by decide

/-- Points 3 and 4 in one strobe with the divisors 1 and 4: point 4's pulse on DS1 begins with its pulse
on DS0, after point 3's pulse and the 10 µs behind it (R38, R39). -/
theorem test_two_strobe_pulses :
    let sam : SamplingImage := { defaultSampling with d0 := 1, d1 := 4 }
    let o := (resetBase.ds.pulse (dsPulses sam 3)).pulse (dsPulses sam 4)
    o = ⟨.active, .inactive, [⟨true, true⟩]⟩ ∧ o.expire .ds0 = ⟨.between, .inactive, [⟨true, true⟩]⟩
      ∧ (o.expire .ds0).expire .ds0 = ⟨.active, .active, []⟩ := by decide

/-- A point that waits for DS1 keeps DS0, ready, until DS1 is free (R38). -/
theorem test_pulse_waits_for_both_lines :
    let o : DsOutputs := ⟨.between, .active, [⟨true, true⟩]⟩
    o.expire .ds0 = ⟨.ready, .active, [⟨true, true⟩]⟩
      ∧ ((o.expire .ds0).expire .ds1).expire .ds1 = ⟨.active, .active, []⟩ := by decide

/-! ## Lanes and sample sets (03, 04) -/

/-- The right head of the example of 3.3: −1 on d, an offset of −10 on v. -/
def rightHead : HeadCalibration := { dPolarity := -1, dOffset := 0, vPolarity := 1, vOffset := -10 }

/-- The SL1 readings of the example of 3.3. -/
theorem test_processed_head :
    processHead rightHead ⟨0, .head (-370) 2450⟩ = (some 370, some 2440)
      ∧ processHead rightHead ⟨0, .head (-32768) 2449⟩ = (none, some 2439)
      ∧ processHead rightHead ⟨1, .head 412 2511⟩ = (none, none) := by decide

/-- The entry of the rounding example of 4.4. -/
def bracketed (target : Int) : PointEntry :=
  { point := 50, strobe := 503, target := target, left := 12480000, right := 12525000
    position := 12012500, corrected := false, limited := false }

/-- The rounding example of 4.4. -/
theorem test_interpolation :
    interpolate (bracketed 12500000) (some 412) (some 431) = some 420
      ∧ interpolate (bracketed 12500000) (some 385) (some 370) = some 378 := by decide

/-- Halves in both directions, and an absent side (4.4). -/
theorem test_interpolation_halves :
    interpolate (bracketed 12502500) (some 10) (some 11) = some 11
      ∧ interpolate (bracketed 12502500) (some 11) (some 10) = some 10
      ∧ interpolate (bracketed 12502500) none (some 10) = none := by decide

/-- An auxiliary frame for set 0 with its CRC, as 13.2 lays it out: 1207, status 0. -/
def auxFrame : List Byte := [4, 0, 0] ++ leInt 2 1207 ++ leNat 2 (crc16 ([4, 0, 0] ++ leInt 2 1207)).toNat

/-- The frame fills SL3's slot of set 0 (R46). -/
theorem test_laneFrame_fills :
    ((after (exec (.laneFrame .sl3 auxFrame) State.reset)).lanes.lane.sl3.last.map LastFrame.reading)
      = some ⟨0, .aux 1207⟩ := by decide +kernel

/-- The same frame on SL0 is of the wrong kind: an integrity failure (R45, R52). -/
theorem test_laneFrame_wrong_kind :
    (after (exec (.laneFrame .sl0 auxFrame) State.reset)).lanes.lane.sl0.errors = 1 := by decide +kernel

/-- A LOCKED lane's 16th miss in a row makes it LOST (R55). -/
theorem test_score_lost :
    (LaneReceiver.score { resetReceiver .auto with state := .locked, misses := 15 } false).state = .lost
      ∧ (LaneReceiver.score { resetReceiver .auto with hits := 3 } true).state = .locked := by decide

/-! ## Geometry (05) -/

/-- A sample of one point at speed, every lane delivering. -/
def sampleAt (j : Nat) : SpatialSample :=
  { point := j, target := j * 250000, position := j * 250, corrected := false, limited := false
    values := { dL := some 412, vL := some 2510, dR := some 370, vR := some 2440, zL := some 153420
                zR := some 152900, w := some (-8), phi := some 40000, aux := some 1207 }
    speed := 3240, flags := noFlags, late := false, absent := .all false }

/-- GAUGE is G_0 + d_L + d_R, XLEVEL is D × φ less v_L − v_R (R79, R80): 412 + 370, and
150,000 × 40,000 / 1,000,000 − 70. -/
theorem test_gauge_and_xlevel :
    (formSample defaultCalibration defaultSampling (sampleAt 1)).gauge = ⟨some 782, false⟩
      ∧ (formSample defaultCalibration defaultSampling (sampleAt 1)).xlevel = ⟨some 5930, false⟩ := by
  decide

/-- A result beyond ±32767 is limited and marked (R85). -/
theorem test_saturation :
    saturate (some 32768) = ⟨some 32767, true⟩ ∧ saturate (some (-32767)) = ⟨some (-32767), false⟩ := by
  decide

/-- SAMPLING of the example of 5.7: h_v = 2, h_a = 1, b_s = 1, b_l = 3. -/
def shortChords : SamplingImage := { defaultSampling with halfV := 2, halfA := 1, twistS := 1, twistL := 3 }

/-- An open segment after `n` samples under the settings of the example of 5.7. -/
def segmentAfter (n : Nat) : GeometryUnit :=
  (List.range' 1 n).foldl
    (fun g j => g.takeSample defaultCalibration shortChords (fun _ => 0) (sampleAt j))
    { resetGeometry with segOpen := true }

/-- The example of 5.7 at sample 6: window 2 to 6, two pending, records 1 to 4. -/
theorem test_segment_at_sample_six :
    (segmentAfter 6).window.map (fun x => x.sample.point) = [2, 3, 4, 5, 6]
      ∧ (segmentAfter 6).pendingCount = 2
      ∧ (segmentAfter 6).out.map PointRecord.point = [1, 2, 3, 4] := by decide +kernel

/-- The flush of the example of 5.7: records 5 and 6, run-final; record 5 keeps ALIGN and loses TOP. -/
theorem test_segment_flush :
    let rs := (((segmentAfter 6).flush shortChords (fun _ => 0)).out.drop 4)
    rs.map PointRecord.point = [5, 6] ∧ rs.map PointRecord.runFinal = [true, true]
      ∧ rs.map (fun r => r.channels.topL.value.isSome) = [false, false]
      ∧ rs.map (fun r => r.channels.alignL.value.isSome) = [true, false] := by decide +kernel

/-! ## Limits and classes (06) -/

/-- The image of the GAUGE example of 6.4, in class 2. -/
def gaugeLimits : LimitsImage :=
  { thresholds := ((((((List.replicate 192 none).set 12 (some 1000)).set 13 (some 1500)).set 14
      (some 2500)).set 15 (some (-500))).set 16 (some (-800)))
    params := List.replicate 8 { defaultParams with hysteresis := 50 } }

/-- The upper zones of the GAUGE example of 6.4. -/
theorem test_gauge_upper_zones :
    [2600, 1500, 1001, 1000, 951, 950].map (fun v => zoneOf gaugeLimits 0 2 .upper (some v))
      = [.exceeding 3, .exceeding 1, .exceeding 1, .band, .band, .inside] := by decide

/-- The lower zones of the GAUGE example of 6.4, an absent value, and a class without thresholds. -/
theorem test_gauge_lower_zones :
    [-450, -480, -500, -600, -900].map (fun v => zoneOf gaugeLimits 0 2 .lower (some v))
        = [.inside, .band, .band, .exceeding 1, .exceeding 2]
      ∧ zoneOf gaugeLimits 0 2 .lower none = .absent
      ∧ zoneOf gaugeLimits 0 3 .lower (some 9) = .noLimit := by decide

/-- The class queue of the example of 6.7, after its third and its fifth row. -/
theorem test_class_queue :
    let q := insertClass ⟨1500, 2, 1500, .p2⟩
      (insertClass ⟨1300, 1, 1300, .p2⟩ (insertClass ⟨1500, 3, 1500, .p0⟩ []))
    q = [⟨1300, 1, 1300, .p2⟩, ⟨1500, 2, 1500, .p2⟩]
      ∧ (insertClass ⟨effectivePoint 1250 1190, 0, 1190, .p0⟩ q).map ClassEntry.effective
        = [1251, 1300, 1500] := by decide

/-! ## Exceedances (07) -/

/-- A POINT record of the example of 7.5 with a TWIST_S value. -/
def twistPoint (j : Nat) (v : Option Int) : PointRecord :=
  pointRecord { sampleAt j with position := 12000000 + j * 250 } 2
    { absentChannels with twistS := ⟨v, false⟩ } false false false

/-- The judging of the example of 7.5: thresholds 300, 450 and 600, H 50, K 4, L 2, G 3, trigger 2. -/
def twistJudging (r : PointRecord) : Judging :=
  { limits :=
      { thresholds := (((List.replicate 192 none).set 60 (some 300)).set 61 (some 450)).set 62 (some 600)
        params := List.replicate 8 ⟨50, 4, 2, 3⟩ }
    cls := 2, marking := { defaultMarking with enable := true, trigger := 2 }
    sampling := defaultSampling, record := r }

/-- The exceedance number stands at 17. -/
def seventeen : Tally := { number := 17, counts := zeroCounts, out := [], marking := resetMarking }

/-- Tracker 4 of the example after the points from 802 on. -/
def twistAfter (vs : List (Option Int)) : Tracker × Tally :=
  ((List.range' 802 vs.length).zip vs).foldl
    (fun y x => judge (twistJudging (twistPoint x.1 x.2)) 2 .upper y.1 y.2) (none, seventeen)

/-- The table's row for point 804: level 2, the tie keeps the peak at 803, the mark was asked for. -/
theorem test_exceedance_tie :
    (twistAfter [some 310, some 470, some 470]).1.map
        (fun g => (g.level, g.peakPoint, g.endPoint, g.mark)) = some (2, 803, 804, some .queued) := by
  decide

/-- The whole table: one URGENT record at 807 and EXCEEDANCE 18 of 9 points at 814. -/
theorem test_exceedance_closes :
    let y := twistAfter [some 310, some 470, some 470, none, some 280, some 640, some 260, some 240,
      some 310, some 200, some 250, some 100, some 120]
    y.1 = none ∧ y.2.number = 18
      ∧ y.2.out.map Record.kind = [3, 2]
      ∧ y.2.out.filterMap Record.exceedanceNumber? = [18] := by decide

/-- The two records' fields: the URGENT value and position, and the EXCEEDANCE ends and length. -/
theorem test_exceedance_records :
    (twistAfter [some 310, some 470, some 470, none, some 280, some 640, some 260, some 240, some 310,
      some 200, some 250, some 100, some 120]).2.out.map (fun r => match r with
        | .urgent u => (u.position, u.value, 0, 0)
        | .exceedance x => (x.endPosition, x.peakValue, x.startPoint, x.length)
        | _ => (0, 0, 0, 0)) = [(12201750, 640, 0, 0), (12202500, 640, 802, 2250)] := by decide

/-! ## Marking (08) -/

/-- The MARKING image and the marking unit of the example of 8.5. -/
def painting : MarkingImage := { defaultMarking with enable := true, trigger := 2 }

/-- The marking unit of the example after its first request. -/
def firstMark : MarkingUnit :=
  (MarkingUnit.decideMark { resetMarking with rm := 206100000 } painting 215750000 803
    (.tracker 2 .upper)).1

/-- The first four requests of the example of 8.5. -/
theorem test_mark_outcomes :
    firstMark.queue = [⟨215750000, 803, .tracker 2 .upper⟩]
      ∧ (firstMark.decideMark painting 216250000 805 (.tracker 6 .lower)).2 = .merged
      ∧ (firstMark.decideMark painting 220000000 820 (.manual .p1)).2 = .queued
      ∧ (firstMark.decideMark painting 205000000 760 (.manual .p1)).2 = .late := by decide

/-- The strobe at 215,760,000 fires the first entry: overshoot 10,000, MK for 40 ms (8.5, R141). -/
theorem test_mark_fires :
    let u := firstMark.take painting 215760000 900 450000 false
    u.queue = [] ∧ u.line = some 490000
      ∧ u.out = [.mark ⟨803, .tracker 2 .upper, 215750000, 215760000, 900, false⟩] := by decide

/-! ## The ring (10) -/

/-- The ring of the overrun example of 10.5: head 48,300, oldest 40,108. -/
def fullRing : Ring :=
  { contents := [], head := 48300, oldest := 40108, rotation := .geometry, granted := none }

/-- The overrun example of 10.5: the cursor 40,003 is behind and has lost 105. -/
theorem test_overrun : fullRing.isBehind 40003 = true ∧ fullRing.lostCount 40003 = 105 := by decide

/-- The Read Records table of 10.5: GONE, present, NOT_YET. -/
theorem test_places :
    fullRing.isGone 40050 = true ∧ fullRing.isPresent 48299 = true ∧ fullRing.isPresent 48300 = false
      ∧ fullRing.isGone 48300 = false := by decide

/-- Numbers compare across the wrap (R162). -/
theorem test_places_wrap :
    let r : Ring := { fullRing with head := 1, oldest := 0xFFFFFFFF }
    r.isPresent 0 = true ∧ r.isAhead 2 = true ∧ r.isGone 0xFFFFFFFE = true := by decide

/-! ## Resets -/

/-- The reset line takes the part to the state after reset. -/
theorem test_resetLine : (after (exec .resetLine (inRun State.reset 3))).run = resetRun
    ∧ (after (exec .resetLine (inRun State.reset 3))).base = State.reset.base := by decide

/-! ## States and operands that meet the statements' hypotheses

Each `witness_<Statement>` shows concrete states and operands for the hypotheses of
`Obligations.<Statement>`, each clause at a boundary of its range, most of them with what the command
then answers. -/

/-- A request at P0 can be dispatched. -/
theorem asking_canDispatch (r : Request) : (asking r).canDispatch .p0 r [] := ⟨rfl, rfl, rfl⟩

/-- And in a run. -/
theorem inRun_canDispatch (r : Request) (j : Nat) : (inRun (asking r) j).canDispatch .p0 r [] :=
  ⟨rfl, rfl, rfl⟩

/-- `s` with permissions of P0 replaced. -/
def permitted (s : State) (a : List Byte) : State :=
  { s with store := { s.store with committed := { s.store.committed with
      access := { s.store.committed.access with p0 := a } } } }

theorem witness_StepRunsFrontCommand : State.reset.pending = [] := rfl

/-- Reset Part with and without the permission; then with its OK frame in transmission. -/
theorem witness_ResetPartOutcomes :
    let r : Request := ⟨22, 1, []⟩
    let s := asking r
    let noReset := permitted s (defaultPortAccess.set 7 0)
    let waiting : State := { atP0 { asked r with tx := some ⟨.reply (.response ⟨22, 1, .ok, []⟩), []⟩ } with
      resetPending := some .p0 }
    s.canDispatch .p0 r [] ∧ (s.access .p0).reset = true ∧ (s.ports.get .p0).link = .up
      ∧ noReset.canDispatch .p0 r [] ∧ (noReset.access .p0).reset = false
      ∧ waiting.resetPending = some .p0 ∧ 0 < waiting.store.committed.odometry.failDistance
      ∧ (waiting.ports.get .p0).tx = some ⟨.reply (.response ⟨22, 1, .ok, []⟩), []⟩
      ∧ (waiting.ports.get .p0).link = .up ∧ Instr.runStart .p1 ∈ dispatches .p1 :=
  ⟨asking_canDispatch _, rfl, rfl, ⟨rfl, rfl, rfl⟩, rfl, rfl, by decide, rfl, rfl, by decide⟩

/-- After a reset with every lane mode FORCE_OFF set 0 is closed and recent, and with one AUTO it is open
(R46, R61, R62); the speed window holds the entry of the reset and that of strobe 0 (R17). -/
theorem witness_ResetPartOutcomes_lanes :
    let t (mode : LaneMode) := restarted [] { resetStore with
      installedCal := { defaultCalibration with modes := ⟨.forceOff, .forceOff, .forceOff, mode⟩ } } (.all .up)
    (t .forceOff).lanes.sets.map SampleSet.condition = [.closed]
      ∧ (t .forceOff).lanes.recent = [⟨0, 0, ⟨false, false, false, false⟩⟩]
      ∧ (t .auto).lanes.sets.map SampleSet.condition = [.opened] ∧ (t .auto).lanes.recent = []
      ∧ (t .auto).tach.window = [0, 0] ∧ (t .auto).base.inbox.map StrobeItems.strobe = [0] := by
  decide +kernel

theorem witness_TachometerPulses :
    (State.reset.tach.units.get .a).candidate = none
      ∧ ((after (exec (.pulseCandidate .a false) State.reset)).tach.units.get .a).candidate
        = some ⟨4, false, false⟩ := by decide

/-- The health pairs of R5 and R7, increments of one sign and of opposite signs, and the clamp's sides. -/
theorem witness_UsedIncrementOfAStrobe :
    let k (u : TachUnit) := (u.takeStrobe unitOdometry 500 1).2.1.delta
    k (twoTachs (turned 40) (turned 39)) = 40 ∧ k (twoTachs (turned (-1)) (turned 1)) = 0
      ∧ k (twoTachs (turned 0) (turned (-3))) = -3
      ∧ k (twoTachs (turned 7) { turned 9 with health := .failed }) = 7
      ∧ k (twoTachs { turned 9 with health := .recovering } (turned 7)) = 7
      ∧ k (twoTachs (turned 69500) (turned 0)) = 69500
      ∧ k (twoTachs (turned 69501) (turned 0)) = 69500
      ∧ k (twoTachs (turned (-69501)) (turned 0)) = -69500 := by decide

/-- The increments of the example of 1.2: from 3 pulses to 4, and from 4 back to −3 (R3). -/
theorem witness_UsedIncrementOfAStrobe_distance :
    let o : OdometryImage := { defaultOdometry with pulsesPerRev := 1024, circumference := 2890000 }
    let d (latched pulses : Int) := { resetTach with pulses := pulses, latched := latched }.increment o
    0 < o.pulsesPerRev ∧ d 3 4 = 2823 ∧ d 4 (-3) = -19756 := by decide

/-- The speed window's first entry, its 65th and its 66th, and a rate change (R16, R17); halves away from
zero, over a period of 72 µs. -/
theorem witness_UsedIncrementOfAStrobe_window :
    let r (u : TachUnit) := ((twoTachs (turned 1) (turned 1)).takeStrobe unitOdometry 72 1, u)
    let out (window : List Int) (changed : Bool) :=
      let u := ({ twoTachs (turned 1) (turned 1) with window := window, rateChanged := changed }.takeStrobe
        unitOdometry 72 1).1
      (u.window.length, u.speed)
    (r resetTachUnit).1.2.1.delta = 1 ∧ out [] false = (1, 0) ∧ out [0] false = (2, 1)
      ∧ out (List.replicate 64 0) false = (65, 0) ∧ out (List.replicate 65 0) false = (65, 0)
      ∧ out [0, 0] true = (1, 0) := by decide

/-- Health and recovery at a strobe, with the limit distance at 2,000,000 µm: B silent just below and at
it, with A outside HEALTHY, and B RECOVERING at each outcome of a comparison (R10, R11, R13). -/
theorem witness_UsedIncrementOfAStrobe_health :
    let b (x : Tach) := ((twoTachs (turned 10) x).takeStrobe unitOdometry 500 1).1.units.b
    let silent (n : Nat) : Tach := { resetTach with silent := n }
    let recovering (n count : Nat) (x : Tach) : Tach :=
      { x with health := .recovering, silent := n, recovery := count }
    let lone := ((twoTachs { turned 10 with health := .failed } (silent 2000000)).takeStrobe unitOdometry
      500 1).1.units.b
    let still := ((twoTachs resetTach (recovering 0 3 resetTach)).takeStrobe unitOdometry 500 1).1.units.b
    (b (silent 1999989)).health = .healthy ∧ (b (silent 1999990)).health = .failed
      ∧ lone.health = .healthy ∧ lone.silent = 2000000
      ∧ (b { turned 10 with health := .failed }).health = .failed
      ∧ (b (recovering 2000000 3 (turned 10))).health = .failed
      ∧ ((b (recovering 0 3 (turned 1012))).health, (b (recovering 0 3 (turned 1012))).recovery)
        = (.recovering, 0)
      ∧ still.recovery = 3 ∧ (b (recovering 0 3 (turned 10))).recovery = 4
      ∧ (b (recovering 0 254 (turned 10))).health = .recovering
      ∧ (b (recovering 0 255 (turned 10))).health = .healthy := by decide

/-- Set 0 just below its deadline and at it, with D_a = 4 and no image staged; and the byte on SS (R42). -/
theorem witness_SampleStrobeTaken :
    let s (n : Word32) : State := { State.reset with strobe := { State.reset.strobe with number := n } }
    let t (n : Word32) := after (exec .sampleStrobe (s n))
    (s 2).store.stagedCal = false ∧ (s 2).store.installedCal.assemblyWindow = 4
      ∧ setZero ∈ (t 2).lanes.sets ∧ (t 3).lanes.sets.map SampleSet.condition = [.closed, .opened]
      ∧ 1 ≤ State.reset.tach.window.length ∧ (t 255).strobe.ss = 0 ∧ (t 254).strobe.ss = 255 := by
  decide +kernel

/-- A strobe that brings the deadline of set 0 with an image staged that turns SL3 off: set 0 closes, then set
1, which awaits only SL3 by then, and the set opened awaits the other lanes; the last strobe of a set's time
in the list of recent sets and the one after; and a set that awaits no lane (R46, R56, R57, R61 to R64). -/
theorem witness_SampleStrobeTaken_closes :
    let filled : SampleSet :=
      { setZero with
        strobe := 1
        slots := ⟨some ⟨0, .head 1 2⟩, some ⟨0, .head 3 4⟩, some ⟨0, .inertial 5 6 7 8⟩, none⟩ }
    let image : CalibrationImage := calibrationOf (defaultCalibration.values.set 3 1)
    let s : State := { State.reset with
      strobe := { State.reset.strobe with number := 3 }
      lanes := { State.reset.lanes with sets := [setZero, filled] }
      store := { resetStore with
        stagedCal := true, committed := { defaultImages with calibration := image } }
      ports := State.reset.ports.set .p0 { resetPort .up with mask := ⟨false, true, false⟩ } }
    let t := after (exec .sampleStrobe s)
    let past (n : Word32) := (after (exec .sampleStrobe { State.reset with
      strobe := { State.reset.strobe with number := 7 }
      lanes := { State.reset.lanes with sets := [], recent := [⟨0, n, .all true⟩] } })).lanes.recent
    let none_ := after (exec .sampleStrobe { State.reset with
      lanes := { State.reset.lanes with lane := .all (resetReceiver .forceOff), sets := [] } })
    s.store.installedCal.assemblyWindow = 4
      ∧ t.lanes.sets.map SampleSet.condition = [.closed, .closed, .opened]
      ∧ t.lanes.recent.map RecentSet.strobe = [0, 1] ∧ t.lanes.recent.map RecentSet.closedAt = [4, 4]
      ∧ t.lanes.sets.map SampleSet.awaited
        = [⟨true, true, true, true⟩, ⟨true, true, true, false⟩, ⟨true, true, true, false⟩]
      ∧ t.store.stagedCal = false ∧ t.lanes.lane.sl3.state = .off
      ∧ t.ports.p0.tx.map Transmission.what = some (.reply (.notice (.laneState .sl3 .seeking .off)))
      ∧ past 1 = [⟨0, 1, .all true⟩] ∧ past 0 = []
      ∧ none_.lanes.sets.map SampleSet.condition = [.closed] := by decide +kernel

/-- The part with A outside HEALTHY, and a strobe next. -/
theorem witness_AtMostOneTachometerOutsideHealthy :
    let s : State := { State.reset with
      pending := [.sampleStrobe]
      tach := twoTachs { resetTach with health := .recovering, silent := 5 } resetTach }
    s.TachLaw ∧ completes (step s) :=
  ⟨⟨⟨by decide, by decide⟩, ⟨by decide, by decide⟩, by decide, by decide, by decide⟩, ⟨_, rfl⟩⟩

/-- A strobe waiting at the distance base, out of a run and in one; and five strobes waiting while a mark is
due: the pulse ends 40 ms after the taking, whatever the first strobe's own moment (R141, log 3). -/
theorem witness_PointsFollowTheHighWaterMark :
    let s := inRun State.reset 2
    let due : State :=
      { s with
        time := 10000
        base := { s.base with inbox := List.replicate 5 strobeZeroItems }
        store := { s.store with committed := { s.store.committed with marking := painting } }
        marking := { resetMarking with queue := [⟨0, 1, .manual .p0⟩] } }
    State.reset.base.inbox = [strobeZeroItems] ∧ State.reset.base.running = false
      ∧ s.base.inbox = [strobeZeroItems] ∧ s.base.running = true
      ∧ (0 : Int) < s.store.committed.sampling.interval * 1000 ∧ 0 ≤ s.base.high
      ∧ (s.base.last : Int) = s.base.high / (s.store.committed.sampling.interval * 1000)
      ∧ (after (exec .distanceBaseStrobe due)).marking.line = some 50000
      ∧ (after (exec .distanceBaseStrobe due)).ring.granted = some .marking := by decide

/-- Point 4 under the divisors 1 and 4, with a line active, in the gap, ready, and with a point due on
DS1 alone; and point 3, which asks for DS0 alone. -/
theorem witness_GeneratedPointEntry :
    let sam : SamplingImage := { defaultSampling with d0 := 1, d1 := 4 }
    let ds (o : DsOutputs) (j : Nat) :=
      ({ resetBase with ds := o }.generate sam defaultOdometry 9 0 250000 j).ds
    ds ⟨.active, .inactive, []⟩ 4 = ⟨.active, .inactive, [⟨true, true⟩]⟩
      ∧ ds ⟨.inactive, .between, []⟩ 4 = ⟨.inactive, .between, [⟨true, true⟩]⟩
      ∧ ds ⟨.ready, .inactive, []⟩ 4 = ⟨.active, .active, []⟩
      ∧ ds ⟨.inactive, .inactive, [⟨false, true⟩]⟩ 4 = ⟨.inactive, .inactive, [⟨false, true⟩, ⟨true, true⟩]⟩
      ∧ ds ⟨.inactive, .inactive, [⟨false, true⟩]⟩ 3 = ⟨.active, .inactive, [⟨false, true⟩]⟩ := by decide

/-- A Position Fix's body. -/
def fixBody (f pos : Nat) (force : Byte) : List Byte := leNat 4 f ++ leNat 4 pos ++ [force]

/-- Position Fix at last point 5000 and position 0: each check at its boundary. -/
theorem witness_PositionFixOutcomes :
    let out (f pos : Nat) (force : Byte) :=
      (answerAt (exec (.positionFix .p0) (inRun (asking ⟨11, 9, fixBody f pos force⟩) 5000))).map Prod.fst
    (inRun (asking ⟨11, 9, fixBody 1 2 0⟩) 5000).canDispatch .p0 ⟨11, 9, fixBody 1 2 0⟩ []
      ∧ out 0 0 0 = some .invalidField ∧ out 5000 1000000000 0 = some .invalidField
      ∧ out 5001 0 0 = some .pointAhead ∧ out 903 0 0 = some .tooOld
      ∧ out 904 (904 * 250 + 50001) 0 = some .outOfWindow ∧ out 904 (904 * 250 + 50000) 0 = some .ok
      ∧ out 904 (904 * 250 + 50001) 1 = some .ok :=
  ⟨inRun_canDispatch _ _, by decide +kernel, by decide +kernel, by decide +kernel, by decide +kernel,
    by decide +kernel, by decide +kernel, by decide +kernel⟩

/-- A FIX accepted while two POINT records wait is granted after both, though the rotation comes to the
distance base before the second (R34, R163, R164). -/
theorem test_fix_follows_written_points :
    let a := inRun (asking ⟨11, 9, fixBody 904 (904 * 250) 0⟩) 5000
    let s : State := { a with geo := { a.geo with out := [twistPoint 1 none, twistPoint 2 none] } }.grant
    let t := after (exec (.positionFix .p0) s)
    let next (x : State) := after (exec .ringAppend x)
    (next (next (next t))).ring.contents.map (fun r => r.body.kind) = [1, 1, 6] := by decide +kernel

/-- A FIX on the old J accepted while the RUN_START record of the new run waits is granted after it, though
the rotation stands at run control (R150, R164). -/
theorem test_fix_follows_run_start :
    let a := withOp (inRun (asking ⟨11, 9, fixBody 904 (904 * 250) 0⟩) 5000) (.start 0 .up 0) .recordWaiting
    let s : State := { a with run := { a.run with out := [.resume ⟨.p0, 1⟩] } }.grant
    let t := after (exec (.positionFix .p0) s)
    let next (x : State) := after (exec .ringAppend x)
    t.ring.rotation = .runControl ∧ (next (next t)).ring.contents.map (fun r => r.body.kind) = [10, 6] := by
  decide +kernel

/-- A lone record is granted as it is handed over, and the grant stays when a record of an earlier writer
in the rotation follows (R163). -/
theorem test_grant_is_kept :
    let a := inRun (asking ⟨11, 9, fixBody 904 (904 * 250) 0⟩) 5000
    let t := after (exec (.positionFix .p0) a)
    let u : State := { t with geo := { t.geo with out := [twistPoint 1 none] } }.grant
    t.ring.granted = some .base ∧ u.ring.granted = some .base
      ∧ (after (exec .ringAppend u)).ring.granted = some .geometry := by decide +kernel

/-- An OFF lane, a bad CRC, a duplicate in the open set and in a recent one, a recent set with the slot
empty, and no set at all (R44, R46, R52). -/
theorem witness_LaneFrameOutcomes :
    let put (u : LaneUnit) : State := { State.reset with lanes := u }
    let u := State.reset.lanes
    let take (s : State) := (after (exec (.laneFrame .sl3 auxFrame) s)).lanes
    let off := put { u with lane := u.lane.set .sl3 (resetReceiver .forceOff) }
    let once := after (exec (.laneFrame .sl3 auxFrame) State.reset)
    let recent (b : Bool) := put { u with sets := [], recent := [⟨0, 0, .all b⟩] }
    (off.lanes.lane.get .sl3).state = .off ∧ (u.lane.get .sl3).state ≠ .off
      ∧ checkLaneFrame .sl3 [4, 0, 0, 0, 0, 0, 0] = .badCrc
      ∧ checkLaneFrame .sl3 auxFrame = .wellFormed 0 ⟨0, .aux 1207⟩
      ∧ (take off).lane.sl3.accepted = 0 ∧ (take once).lane.sl3.errors = 1
      ∧ (take (recent true)).lane.sl3.errors = 1
      ∧ ((take (recent false)).lane.sl3.late, (take (recent false)).latePending) = (1, true)
      ∧ (take (put { u with sets := [] })).lane.sl3.errors = 1 := by decide +kernel

/-- Set 0 awaiting the given lanes, with another CALIBRATION image committed, after SL3's frame. -/
def filledSet (awaited : PerLane Bool) (staged : Bool) : State :=
  after (exec (.laneFrame .sl3 auxFrame)
    { State.reset with
      lanes := { State.reset.lanes with sets := [{ setZero with awaited := awaited }] }
      store := { resetStore with
        stagedCal := staged
        committed := { defaultImages with calibration := { defaultCalibration with g0 := 5 } } } })

/-- A frame that leaves an awaited slot of set 0 empty, and one that leaves none: the set closes as
strobe 0 is current, with its values and its mask, and with a staged CALIBRATION image taken up (R46, R51,
R62, R64). -/
theorem witness_LaneFrameOutcomes_fills :
    let kept := filledSet (.all true) false
    let closed := filledSet ⟨false, false, false, true⟩ false
    let staged := filledSet ⟨false, false, false, true⟩ true
    kept.lanes.sets.map (fun x => x.slots.sl3) = [some ⟨0, .aux 1207⟩]
      ∧ kept.lanes.sets.map SampleSet.condition = [.opened]
      ∧ closed.lanes.sets.map SampleSet.condition = [.closed]
      ∧ closed.lanes.sets.map (fun x => x.values.aux) = [some 1207]
      ∧ closed.lanes.sets.map SampleSet.absent = [⟨true, true, true, false⟩]
      ∧ closed.lanes.recent = [⟨0, 0, ⟨false, false, false, true⟩⟩]
      ∧ staged.store.installedCal.g0 = 5 ∧ staged.store.stagedCal = false := by decide +kernel

/-- The lane states of R55 after a reset under a hit and a miss. -/
theorem witness_LaneScoreAtRelease :
    let filled : SampleSet := { setZero with slots := .all (some ⟨0, .aux 0⟩) }
    (State.reset.lanes.lane.get .sl0).state = .seeking ∧ (filled.slots.get .sl0).isSome = true
      ∧ (setZero.slots.get .sl0).isSome = false
      ∧ ((resetReceiver .forceOff).score true) = resetReceiver .forceOff
      ∧ (LaneReceiver.score { resetReceiver .auto with state := .locked } true).state = .locked := by
  decide

/-- A set released: the late flag, and its point sampled. Then set 0 as it is ready, and each condition of
R65 that holds it back: OPEN, not next, without its items, its strobe not yet taken. -/
theorem witness_LaneScoreAtRelease_release :
    let closed : SampleSet := { setZero with condition := .closed }
    let s (x : SampleSet) (inbox : List StrobeItems) : State :=
      { State.reset with
        lanes := { State.reset.lanes with sets := [x], latePending := true }
        base := { resetBase with inbox := inbox, queue := [{ bracketed 9 with strobe := 0 }] } }
    let left (x : SampleSet) (inbox : List StrobeItems) := (s x inbox).releaseReady.lanes.sets.length
    ((s closed []).releaseSet closed).resampler.held.map SampleSet.late = some true
      ∧ ((s closed []).releaseSet closed).geo.inbox.map SpatialSample.point = [50]
      ∧ ((s closed []).releaseSet closed).lanes.latePending = false
      ∧ left closed [] = 0 ∧ left setZero [] = 1 ∧ left { closed with strobe := 1 } [] = 1
      ∧ left { closed with items := none } [] = 1 ∧ left closed [strobeZeroItems] = 1 := by decide +kernel

/-- The releases of a set with a lane's fourth consecutive hit, at a port that enables LANE_STATE notices and
at one that does not (R55, R57). -/
theorem witness_LaneScoreAtRelease_notices :
    let r : LaneReceiver := { resetReceiver .auto with hits := 3 }
    let s : State := { State.reset with
      lanes := { State.reset.lanes with lane := State.reset.lanes.lane.set .sl1 r }
      ports := ⟨{ resetPort .up with mask := ⟨false, true, false⟩ }, resetPort .up, resetPort .down⟩ }
    let t := s.releaseSet { setZero with slots := setZero.slots.set .sl1 (some ⟨0, .head 1 2⟩) }
    t.lanes.lane.sl1.state = .locked
      ∧ t.ports.p0.tx.map Transmission.what = some (.reply (.notice (.laneState .sl1 .seeking .locked)))
      ∧ t.ports.p1.tx = none := by decide

/-- The last lane and the first number beyond, and the last lane mask and the first beyond. -/
theorem witness_LaneRequests :
    let health (n : Byte) := (answerAt (exec (.readLaneHealth .p0) (asking ⟨19, 2, [n]⟩))).map Prod.fst
    let sample (n : Byte) := (answerAt (exec (.readLaneSample .p0) (asking ⟨21, 2, [n]⟩))).map Prod.fst
    let clear (n : Byte) := (answerAt (exec (.clearLaneFlags .p0) (asking ⟨20, 2, [n]⟩))).map Prod.fst
    let barred := permitted (asking ⟨21, 2, [3]⟩) (defaultPortAccess.set 6 0)
    (asking ⟨19, 2, [3]⟩).canDispatch .p0 ⟨19, 2, [3]⟩ []
      ∧ health 3 = some .ok ∧ health 4 = some .invalidField ∧ sample 3 = some .ok
      ∧ sample 4 = some .invalidField ∧ clear 15 = some .ok ∧ clear 16 = some .invalidField
      ∧ answerAt (exec (.readLaneSample .p0) barred) = some (.notPermitted, []) :=
  ⟨asking_canDispatch _, by decide +kernel, by decide +kernel, by decide +kernel, by decide +kernel,
    by decide +kernel, by decide +kernel, by decide +kernel⟩

/-- The Read Lane Sample bodies of a lane without a last frame and of each kind of payload, with the SL1
readings of the example of 3.3 (13.7). -/
theorem witness_LaneRequests_sample :
    let body (l : Lane) (st : Byte) (x : Payload) :=
      ((laneSampleFields { defaultCalibration with right := rightHead } l
        { resetReceiver .auto with last := some ⟨7, 9, ⟨st, x⟩⟩ }).drop 2).map (fun f => (f.size, f.value))
    laneSampleFields defaultCalibration .sl0 (resetReceiver .auto) = [flagField false, natField 1 1]
      ∧ body .sl1 0 (.head (-370) 2450)
        = [(4, 7), (1, 9), (1, 0), (2, -370), (2, 2450), (4, 370), (4, 2440)]
      ∧ body .sl0 1 (.head 5 (-32768))
        = [(4, 7), (1, 9), (1, 1), (2, 5), (2, -32768), (4, -2147483648), (4, -2147483648)]
      ∧ (body .sl2 0 (.inertial 1 (-2147483648) 3 4)).drop 3
        = [(4, 1), (4, -2147483648), (4, 3), (4, 4), (8, 1), (8, -9223372036854775808), (8, 3), (8, 4)]
      ∧ (body .sl3 2 (.aux 1207)).drop 3 = [(2, 1207), (2, -32768)]
      ∧ (body .sl3 0 (.aux 1207)).drop 3 = [(2, 1207), (2, 1207)] := by decide

/-- A target just after the left bracket, and one at the right bracket; a sample between a late set and
one without a lane (R68, R69). -/
theorem witness_InterpolatedValue :
    let e := bracketed 12480001
    let z := bracketed 12525000
    let held := { setZero with late := true }
    let x : SampleSet := { setZero with
      absent := ⟨false, false, true, false⟩
      items := some { strobeZeroItems with
        speed := 77, flags := { strobeZeroItems.flags with overSpeed := true } } }
    let p := resample (some held) x z
    e.left < e.target ∧ e.target ≤ e.right ∧ z.left < z.target ∧ z.target = z.right
      ∧ interpolate z (some 412) (some 431) = some 431 ∧ held.items = some strobeZeroItems
      ∧ (p.speed, p.late, p.flags.overSpeed, p.absent) = (77, true, true, ⟨false, false, true, false⟩) := by
  decide

/-- The payloads of the four lanes: held, lost by status bit 0, and the encodings of no value (R48 to
R50). -/
theorem witness_InterpolatedValue_processed :
    let v (st : Byte) (d zL aux : Int) :=
      let x := processSlots { defaultCalibration with right := rightHead }
        ⟨some ⟨st, .head d 2450⟩, some ⟨st, .head d 2450⟩, some ⟨st, .inertial zL 2 3 4⟩, some ⟨st, .aux aux⟩⟩
      [x.dL, x.dR, x.vR, x.zL, x.phi, x.aux]
    v 0 (-370) (-7) 1207 = [some (-370), some 370, some 2440, some (-7), some 4, some 1207]
      ∧ v 0 (-32768) (-2147483648) (-32768) = [none, none, some 2440, none, some 4, none]
      ∧ v 1 5 6 7 = [none, none, none, none, none, none]
      ∧ v 2 5 6 7 = [some 5, some (-5), some 2440, some 6, some 4, none]
      ∧ processSlots defaultCalibration (.all none) = noValues := by decide

/-- A sample waiting with the segment closed, and with it open before and at the emission delay; and the
last sample of a Run End, with the segment open, and closed with a drained sample and with none while an
older record waits (R94). -/
theorem witness_SpatialSampleTaken :
    let s (g : GeometryUnit) (j : Nat) : State :=
      { State.reset with
        geo := { g with inbox := [sampleAt j] }
        store := { State.reset.store with
          committed := { State.reset.store.committed with sampling := shortChords } } }
    let t (g : GeometryUnit) (j : Nat) := (after (exec .spatialSampleTake (s g j))).geo
    let older : GeometryUnit := { resetGeometry with out := [twistPoint 1 none] }
    (s resetGeometry 1).geo.segOpen = false ∧ (s (segmentAfter 1) 2).geo.segOpen = true
      ∧ (s (segmentAfter 1) 2).geo.endFlush = none
      ∧ (t resetGeometry 1).out.map PointRecord.paused = [true]
      ∧ ([1, 2, 3].map fun j => (after (exec .spatialSampleTake { s resetGeometry j with
          exc := { resetExceedance with cls := 3, classQueue := [⟨2, 1, 2, .p0⟩, ⟨3, 2, 3, .p0⟩] } })).geo.out.map
            PointRecord.cls) = [[3], [1], [2]]
      ∧ (t (segmentAfter 1) 2).out.map PointRecord.point = []
      ∧ (t (segmentAfter 2) 3).out.map PointRecord.point = [1]
      ∧ (t { segmentAfter 2 with endFlush := some true } 3).out.map PointRecord.runFinal
        = [false, true, true]
      ∧ (t { segmentAfter 2 with endFlush := some true } 3).flushLeft = some 3
      ∧ (t { older with endFlush := some true } 3).flushLeft = some 2
      ∧ (t { older with endFlush := some false } 3).flushLeft = some 0
      ∧ (t { older with endFlush := some false } 3).endFlush = none := by decide +kernel

/-- A cross-level history of 128 pairs, a twist that is limited, and versines with a half-chord's end
present and absent (R76, R82, R83, R85). -/
theorem witness_SpatialSampleTaken_channels :
    let sam : SamplingImage := { shortChords with twistS := 6, twistL := 7 }
    let history : List HistoryPair := (List.range' 1 128).map (fun p => ⟨p, ⟨some (-30000), false⟩⟩)
    let s : State :=
      { State.reset with
        geo := { resetGeometry with
          segOpen := true, inbox := [sampleAt 136], history := history
          window := ([133, 134, 135].map sampleAt).map (formSample defaultCalibration sam) }
        store := { State.reset.store with
          committed := { State.reset.store.committed with sampling := sam } } }
    let g := (after (exec .spatialSampleTake s)).geo
    g.history.length = 128 ∧ g.history.getLast?.map HistoryPair.point = some 134
      ∧ g.out.map (fun r => (r.channels.twistS, r.channels.twistL))
        = [(⟨some 32767, true⟩, ⟨some 32767, true⟩)]
      ∧ g.out.map (fun r => (r.channels.topL, r.channels.alignL)) = [(⟨none, false⟩, ⟨some 0, false⟩)] := by
  decide +kernel

/-- The low-speed threshold and just below it; each needed value absent; and a limited GAUGE. -/
theorem witness_GaugeAndCrossLevelOfASample :
    let form (speed : Nat) (v : Values) :=
      formSample defaultCalibration defaultSampling { sampleAt 1 with speed := speed, values := v }
    let v := (sampleAt 1).values
    (form 200 v).lowSpeed = false ∧ (form 199 v).lowSpeed = true ∧ (form 199 v).gauge = ⟨some 782, false⟩
      ∧ (form 199 v).xlevel = absentChannel ∧ (form 199 v).aL = none
      ∧ (form 200 { v with dL := none }).gauge = absentChannel
      ∧ (form 200 { v with phi := none }).xlevel = absentChannel
      ∧ (form 200 { v with vL := none }).yL = none ∧ (form 200 { v with w := none }).aR = none
      ∧ (form 200 { v with dL := some 32768, dR := some 0 }).gauge = ⟨some 32767, true⟩ := by decide

/-- A START handed to the three blocks, then to the distance base; and a RESUME. -/
theorem witness_RunStartAndResumeTakenByBlocks :
    let start := withOp State.reset (.start 5 .down 3)
    let stage (o : Host.Outcome State Fault Refusal) := ((after o).run.op.map Operation.stage)
    stage (exec .geometryRunStart (start (.starting false false false)))
        = some (.starting true false false)
      ∧ stage (exec .exceedanceRunStart (start (.starting true false false)))
        = some (.starting true true false)
      ∧ stage (exec .markingRunStart (start (.starting true true false))) = some .baseStarting
      ∧ stage (exec .distanceBaseRunStart (start .baseStarting)) = some .completing
      ∧ stage (exec .geometryRunResume (withOp State.reset .resume .geometryResuming))
        = some .completing := by decide

/-- A PAUSE handed to the geometry unit, with nothing to flush while an older record waits and with two
records, of two classes, whose twists find no pair far enough back (R82, R88). -/
theorem witness_PauseFlushesTheSegment :
    let s (g : GeometryUnit) : State :=
      { withOp State.reset (.pause 0) .geometryPausing with geo := g }
    let t (g : GeometryUnit) := (after (exec .geometryRunPause (s g))).geo
    (s resetGeometry).run.op = some ⟨.p0, 7, .running, .pause 0, .geometryPausing⟩
      ∧ (t { resetGeometry with out := [twistPoint 1 none] }).flushLeft = some 0
      ∧ (t { segmentAfter 4 with out := [] }).out.map PointRecord.point = [3, 4]
      ∧ ((after (exec .geometryRunPause { s { segmentAfter 4 with out := [] } with
          exc := { resetExceedance with classQueue := [⟨4, 2, 4, .p0⟩] } })).geo.out.map
            (fun r => (r.cls, r.runFinal, r.channels.twistL.value.isSome))) = [(0, true, false), (2, true, false)]
      ∧ (t { segmentAfter 4 with out := [] }).history.map HistoryPair.point = [1, 2, 3, 4]
      ∧ (t { segmentAfter 4 with out := [] }).window.map WindowSample.written = List.replicate 4 true
      ∧ (t { segmentAfter 4 with out := [] }).flushLeft = some 2 := by decide +kernel

/-- The first and the last threshold, and an image of 224 fields. -/
theorem witness_LimitFieldIndices :
    let v := ((List.replicate 224 (5 : Int)).set 191 (-32768)).set 0 7
    v.length = 224 ∧ (limitsOf v).threshold 0 0 .upper 1 = some 7
      ∧ (limitsOf v).threshold 7 3 .lower 3 = none ∧ (limitsOf v).threshold 7 3 .lower 2 = some 5 := by
  decide +kernel

/-- A reference at each level, and none. -/
theorem witness_ZoneOfAValue :
    let l (i : Nat) : LimitsImage :=
      { thresholds := (List.replicate 192 none).set i (some 100), params := [⟨10, 1, 0, 1⟩] }
    closingReference (l 0) 0 0 .upper = some 100 ∧ closingReference (l 1) 0 0 .upper = some 100
      ∧ closingReference (l 2) 0 0 .upper = some 100 ∧ closingReference (l 3) 0 0 .upper = none
      ∧ zoneOf (l 2) 0 0 .upper (some 101) = .exceeding 3
      ∧ [100, 91, 90].map (fun v => zoneOf (l 2) 0 0 .upper (some v)) = [.band, .band, .inside] := by
  decide

/-- The part with one item in the evaluation list. -/
def evaluating (i : EvalItem) : State := { State.reset with exc := { State.reset.exc with evalList := [i] } }

/-- RING_APPEND `n` times. -/
def appended : Nat → State → State
  | 0, s => s
  | n + 1, s => appended n (after (exec .ringAppend s))

/-- The part with a POINT record at 601 in the list, judged as in the example of 7.5, and tracker `i` OPEN
over points 7 and 8, one absent point from its closing. -/
def judged (i : Nat) : State :=
  let s := evaluating (.point (twistPoint 9 (some 601)))
  { s with
    exc := { s.exc with
      cls := 2
      trackers := clearTrackers.set i
        (some { openedProgress (twistPoint 8 (some (-9))) 2 1 (-9) with startPoint := 7, absentRun := 2 }) }
    store := { s.store with
      installedLim := (twistJudging (twistPoint 9 none)).limits
      committed := { s.store.committed with marking := (twistJudging (twistPoint 9 none)).marking } } }

/-- A class entry at the point, a paused record, a record of the previous item still waiting, and one in
progress; and a record that trackers 4 and 5 judge, with tracker 5 OPEN and a change of class: the CLASS
record first, then what each append lets go on (R109, R115). -/
theorem witness_PointEvaluated :
    let s := evaluating (.point (twistPoint 9 (some 601)))
    let waits : State := { s with exc := { s.exc with out := [.urgent ⟨0, .upper, 1, 1, 1⟩] } }
    let busy : State := { s with exc := { s.exc with turn := some (.point (twistPoint 8 none) 3) } }
    let start : State :=
      { judged 5 with exc := { (judged 5).exc with cls := 0, classQueue := [⟨9, 2, 9, .p0⟩] } }
    let t (n : Nat) := (appended n (after (exec .pointEvaluation start))).exc
    s.exc.out = [] ∧ s.exc.turn = none ∧ waits.exc.out ≠ [] ∧ busy.exc.trackers.length = 16
      ∧ (after (exec .pointEvaluation s)).exc.evaluated = 9
      ∧ (t 0).evaluated = 9 ∧ (t 0).cls = 2 ∧ (t 0).turn = some (.point (twistPoint 9 (some 601)) 0)
      ∧ (List.range 4).map (fun n => (t n).out.map Record.kind) = [[5], [3], [2], []]
      ∧ (List.range 4).map (fun n => (t n).counts.urgent) = [0, 1, 1, 1]
      ∧ (List.range 4).map (fun n => (t n).turn.map Turn.next) = [some 0, some 5, some 6, none]
      ∧ (t 3).trackers.map Option.isSome = (List.replicate 16 false).set 4 true
      ∧ (after (exec .pointEvaluation (evaluating (.point { twistPoint 9 none with paused := true })))).exc.evaluated
        = 9 := by decide +kernel

/-- Tracker 0 is interrupted and tracker 4 opens at level 3 with a mark request. The exceedance number
rises for the one record handed on; tracker 4 acts only after it has been appended, and is refused its mark
as LATE where the travel has passed the target in between (R115, R125, R127, R137). -/
theorem test_append_before_next_tracker :
    let first := after (exec .pointEvaluation (judged 0))
    let moved : State := { first with marking := { first.marking with rm := 10 ^ 9 } }
    let mark (s : State) := ((after (exec .ringAppend s)).exc.trackers.getD 4 none).bind Progress.mark
    first.exc.out.map Record.kind = [2] ∧ first.exc.number = 1 ∧ first.exc.counts.urgent = 0
      ∧ first.exc.trackers.getD 4 none = none
      ∧ mark first = some .queued ∧ mark moved = some .late
      ∧ (after (exec .ringAppend first)).exc.out.map Record.kind = [3] := by decide +kernel

/-- An EXCEEDING value at level 3, and one that is not beyond the reference. -/
theorem witness_ClearTrackerOpens :
    let z (v : Int) := zoneOf (twistJudging (twistPoint 802 (some v))).limits 2 2 .upper (some v)
    z 601 = .exceeding 3 ∧ z 300 = .band
      ∧ (twistPoint 802 (some 601)).value 2 = some 601
      ∧ (twistAfter [some 601]).1.map Progress.urgent = some true
      ∧ (twistAfter [some 300]).1 = none := by decide

/-- An OPEN tracker at a value that replaces the peak and at one that ties with it. -/
theorem witness_OpenTrackerExceeds :
    (twistAfter [some 310, some 311]).1.map Progress.peakPoint = some 803
      ∧ (twistAfter [some 310, some 310]).1.map Progress.peakPoint = some 802
      ∧ (twistAfter [some 310, some 601]).1.map Progress.urgent = some true
      ∧ (twistAfter [some 310, some 601, some 602]).2.counts.urgent = 1
      ∧ (twistAfter [some 310, some 600]).2.counts.urgent = 0
      ∧ (twistAfter [some 310, some 450]).1.map Progress.mark = some none
      ∧ (twistAfter [some 310, some 451]).1.map Progress.mark = some (some .queued) := by decide

/-- BAND, INSIDE and ABSENT at an OPEN tracker, each count just below and at its limit. -/
theorem witness_OpenTrackerWithin :
    (twistAfter [some 310, some 300]).1.map Progress.clearCount = some 0
      ∧ (twistAfter [some 310, some 250, some 0, some 0]).1.map Progress.clearCount = some 3
      ∧ (twistAfter [some 310, some 250, some 0, some 0, some 0]).1 = none
      ∧ (twistAfter [some 310, none, none]).1.map Progress.absentRun = some 2
      ∧ (twistAfter [some 310, none, none, none]).1 = none := by decide

/-- Lengths of L_min less 1 and of L_min, and a value in a class without thresholds. -/
theorem witness_ExceedanceClosed :
    let l := (twistJudging (twistPoint 1 none)).limits
    let g := openedProgress (twistPoint 802 (some 310)) 2 1 310
    (closeExceedance l defaultSampling 2 .upper .count g seventeen).counts.suppressed = 1
      ∧ (closeExceedance l defaultSampling 2 .upper .count { g with endPoint := 803 } seventeen).number = 18
      ∧ zoneOf l 2 1 .upper (some 310) = .noLimit := by decide

/-- The part with tracker 4 OPEN and a truncation request at the front. -/
def truncating (cause : TruncationCause) : State :=
  { State.reset with exc := { State.reset.exc with
      evalList := [.truncation cause]
      trackers := clearTrackers.set 4 (some (openedProgress (twistPoint 802 (some 310)) 2 1 310)) } }

/-- Trackers truncated by each cause, recorded one by one, and suppressed below an L_min of 2; a staged
LIMITS image installed by an END when the last has been handled. -/
theorem witness_TruncationClosesEveryTracker :
    let twice (cause : TruncationCause) : State :=
      let s := truncating cause
      { s with
        exc := { s.exc with trackers := s.exc.trackers.set 9 (s.exc.trackers.getD 4 none) }
        store := { s.store with stagedLim := true } }
    let suppressing : State :=
      let s := truncating .pause
      { s with store := { s.store with installedLim := (twistJudging (twistPoint 1 none)).limits } }
    let t (n : Nat) (s : State) := appended n (after (exec .truncation s))
    (truncating .pause).exc.out = [] ∧ (truncating .runEnd).exc.evalList = [.truncation .runEnd]
      ∧ (truncating .pause).exc.turn = none
      ∧ (t 0 (truncating .pause)).exc.turn = some (.truncation .pause 1 5)
      ∧ (t 1 (truncating .pause)).exc.truncation = some ⟨.pause, 1, 0⟩
      ∧ (List.range 3).map (fun n => (t n (twice .runEnd)).exc.number) = [1, 2, 2]
      ∧ (List.range 3).map (fun n => (t n (twice .runEnd)).store.stagedLim) = [true, true, false]
      ∧ (t 2 (twice .runEnd)).exc.truncation = some ⟨.runEnd, 2, 0⟩
      ∧ (t 2 (twice .runEnd)).exc.trackers = clearTrackers ∧ (t 2 (twice .pause)).store.stagedLim = true
      ∧ (t 0 suppressing).exc.truncation = some ⟨.pause, 1, 0⟩
      ∧ (t 0 suppressing).exc.counts.suppressed = 1 := by
  decide +kernel

/-- A number raised by a truncation and by the append that lets one go on; a command that raises none. -/
theorem witness_ExceedanceNumbersFollow :
    let start := truncating .pause
    let s := after (exec .truncation
      { start with exc := { start.exc with trackers := start.exc.trackers.set 9 (start.exc.trackers.getD 4 none) } })
    start.exc.out.length ≤ 1 ∧ s.exc.out.length ≤ 1
      ∧ s.exc.out.filterMap Record.exceedanceNumber? = [1]
      ∧ (after (exec .ringAppend s)).exc.out.filterMap Record.exceedanceNumber? = [2]
      ∧ (after (exec .ringAppend s)).exc.number = 2
      ∧ (after (exec .sampleStrobe s)).exc.number = 1 := by decide +kernel

theorem witness_ExceedanceLawsStay :
    let s : State := { truncating .pause with pending := [.truncation] }
    (s.exc.trackers.length = 16 ∧ s.exc.trackers.map (fun t => t.map Progress.level)
        = (List.replicate 16 none).set 4 (some 1))
      ∧ s.exc.classQueue = [] ∧ s.TurnLaw ∧ completes (step s) :=
  ⟨by decide, rfl, ⟨by decide, by decide, fun _ h => nomatch (h : (none : Option Turn) = some _)⟩,
    ⟨_, rfl⟩⟩

/-- Class Change with E = 10: points at and beyond E, a bad class, a full queue, a replacement in its
place, and an insertion between two entries. -/
theorem witness_ClassChangeOutcomes :
    let full : List ClassEntry := (List.range' 11 8).map (fun e => ⟨e, 0, e, .p1⟩)
    let s (q : List ClassEntry) (point : Nat) (cls : Byte) : State :=
      let a := inRun (asking ⟨12, 3, leNat 4 point ++ [cls]⟩) 20
      { a with exc := { a.exc with evaluated := 10, classQueue := q } }
    let run (q : List ClassEntry) (point : Nat) (cls : Byte) := exec (.classChange .p0) (s q point cls)
    let out (q : List ClassEntry) (point : Nat) (cls : Byte) := answerAt (run q point cls)
    (s [] 11 3).canDispatch .p0 ⟨12, 3, leNat 4 11 ++ [3]⟩ []
      ∧ out [] 11 3 = some (.ok, [natField 4 11]) ∧ out [] 10 3 = some (.ok, [natField 4 11])
      ∧ out [] 11 4 = some (.invalidField, [natField 2 1]) ∧ out [] 0 0 = some (.invalidField, [natField 2 0])
      ∧ out full 19 0 = some (.queueFull, []) ∧ out full 18 0 = some (.ok, [natField 4 18])
      ∧ (s full 18 3).ClassLaw
      ∧ (after (run full 12 3)).exc.classQueue = full.set 1 ⟨12, 3, 12, .p0⟩
      ∧ (after (run [⟨11, 0, 11, .p1⟩, ⟨13, 0, 13, .p1⟩] 12 3)).exc.classQueue.map ClassEntry.effective
        = [11, 12, 13] :=
  ⟨⟨rfl, rfl, rfl⟩, by decide +kernel, by decide +kernel, by decide +kernel, by decide +kernel,
    by decide +kernel, by decide +kernel, ⟨by decide, by decide⟩, by decide +kernel, by decide +kernel⟩

/-- The conditions of R137, each at its boundary: R_m 1000, one entry at 5,000,000, merge 2 m. -/
theorem witness_MarkRequestDecided :
    let u : MarkingUnit := { resetMarking with rm := 1000, queue := [⟨5000000, 1, .manual .p0⟩] }
    let sixteen : List MarkEntry :=
      (List.range 16).map (fun i => ⟨5000000 + 3000000 * (i : Int), 1, .manual .p0⟩)
    let full : MarkingUnit := { u with queue := sixteen }
    let d (u : MarkingUnit) (t : Int) := (u.decideMark painting t 2 (.manual .p1)).2
    (u.decideMark defaultMarking 9 2 (.manual .p1)).2 = .none ∧ d u 1000 = .late
      ∧ d u 7000000 = .merged ∧ d u 7000001 = .queued ∧ d full 2999999 = .dropped := by decide

/-- Manual Mark at last point 5000, each check at its boundary. -/
theorem witness_ManualMarkOutcomes :
    let s (j : Nat) (mk : MarkingImage) : State :=
      let a := inRun (asking ⟨13, 3, leNat 4 j⟩) 5000
      { a with store := { a.store with committed := { a.store.committed with marking := mk } } }
    let out (j : Nat) (mk : MarkingImage) := (answerAt (exec (.manualMark .p0) (s j mk))).map Prod.fst
    (s 5000 painting).canDispatch .p0 ⟨13, 3, leNat 4 5000⟩ []
      ∧ out 0 painting = some .invalidField ∧ out 5001 painting = some .pointAhead
      ∧ out 5000 painting = some .ok ∧ out 904 painting = some .ok ∧ out 903 painting = some .tooOld
      ∧ out 904 defaultMarking = some .markingOff :=
  ⟨⟨rfl, rfl, rfl⟩, by decide +kernel, by decide +kernel, by decide +kernel, by decide +kernel,
    by decide +kernel, by decide +kernel⟩

/-- Each state of a line with a point waiting for it and with none, the other line free and not; and a
pulse end at the end of the running period, one microsecond beyond it, and none: R141 with the period
of 500 µs. -/
theorem witness_LinePulsesEnd :
    let s (e : Option Nat) : State := { State.reset with marking := { resetMarking with line := e } }
    let ds (o : DsOutputs) := (after (exec (.distanceStrobeEnd .ds0)
      { State.reset with base := { resetBase with ds := o } })).base.ds
    (s (some 500)).time + (s (some 500)).strobe.period = 500
      ∧ (after (exec .markerPulseEnd (s (some 500)))).marking.line = none
      ∧ (after (exec .markerPulseEnd (s (some 501)))).marking.line = some 501
      ∧ exec .markerPulseEnd (s none) = .next (s none)
      ∧ ds ⟨.inactive, .active, []⟩ = ⟨.inactive, .active, []⟩
      ∧ ds ⟨.ready, .active, [⟨true, true⟩]⟩ = ⟨.ready, .active, [⟨true, true⟩]⟩
      ∧ ds ⟨.active, .active, [⟨false, true⟩]⟩ = ⟨.inactive, .active, [⟨false, true⟩]⟩
      ∧ ds ⟨.active, .active, [⟨true, false⟩]⟩ = ⟨.between, .active, [⟨true, false⟩]⟩
      ∧ ds ⟨.between, .active, []⟩ = ⟨.inactive, .active, []⟩
      ∧ ds ⟨.between, .active, [⟨true, false⟩]⟩ = ⟨.active, .active, []⟩
      ∧ ds ⟨.between, .ready, [⟨true, true⟩]⟩ = ⟨.active, .active, []⟩
      ∧ ds ⟨.between, .between, [⟨true, true⟩]⟩ = ⟨.ready, .between, [⟨true, true⟩]⟩ :=
  ⟨rfl, rfl, rfl, rfl, rfl, rfl, rfl, rfl, rfl, rfl, rfl, rfl⟩

/-- A queued mark that balances, and a command that may act on it; and a Run Start taken with that mark
queued, which leaves none (R145, R146; log 33). -/
theorem witness_MarkingLawsStay :
    let s : State := { State.reset with pending := [.markerPulseEnd], marking := firstMark }
    let start := { withOp s (.start 0 .up 0) (.starting true true false) with marking := firstMark }
    s.MarkLaw ∧ s.marking.balanced ∧ completes (step s) ∧ completes (exec .markerPulseEnd s)
      ∧ start.marking.balanced ∧ completes (exec .markingRunStart start)
      ∧ (after (exec .markingRunStart start)).marking.queue = []
      ∧ (after (exec .markingRunStart start)).marking.counts.queued = 0 :=
  ⟨⟨by decide, by decide⟩, by unfold MarkingUnit.balanced; decide, ⟨_, rfl⟩, ⟨_, rfl⟩,
    by unfold MarkingUnit.balanced; decide, ⟨_, rfl⟩, rfl, rfl⟩

/-- A Run Start's body. -/
def startBody (position : Nat) (o c : Byte) : List Byte := leNat 4 position ++ [o, c]

/-- Run Start in IDLE with the greatest fields, and each field just beyond. -/
theorem witness_RunStartOutcomes :
    let out (position : Nat) (o c : Byte) := exec (.runStart .p0) (asking ⟨7, 4, startBody position o c⟩)
    (asking ⟨7, 4, startBody 999999999 1 3⟩).canDispatch .p0 ⟨7, 4, startBody 999999999 1 3⟩ []
      ∧ (after (out 999999999 1 3)).run.number = 1 ∧ (after (out 999999999 1 3)).run.state = .running
      ∧ answerAt (out 1000000000 1 3) = some (.invalidField, [natField 2 0])
      ∧ answerAt (out 0 2 3) = some (.invalidField, [natField 2 1])
      ∧ answerAt (out 0 0 4) = some (.invalidField, [natField 2 2]) :=
  ⟨asking_canDispatch _, by decide +kernel, by decide +kernel, by decide +kernel, by decide +kernel,
    by decide +kernel⟩

/-- Pause in RUNNING, Resume in PAUSED, End in both, and each in a state that does not admit it. -/
theorem witness_RunPauseResumeEndOutcomes :
    let s (code : Byte) (st : RunState) : State :=
      let a := inRun (asking ⟨code, 4, []⟩) 2
      { a with run := { a.run with state := st } }
    (s 8 .running).canDispatch .p0 ⟨8, 4, []⟩ []
      ∧ (after (exec (.runPause .p0) (s 8 .running))).run.state = .paused
      ∧ answerAt (exec (.runPause .p0) (s 8 .paused)) = some (.wrongState, [])
      ∧ (after (exec (.runResume .p0) (s 9 .paused))).run.out = [.resume ⟨.p0, 2⟩]
      ∧ answerAt (exec (.runResume .p0) (s 9 .running)) = some (.wrongState, [])
      ∧ (after (exec (.runEnd .p0) (s 10 .paused))).run.closing = true
      ∧ answerAt (exec (.runEnd .p0) (s 10 .idle)) = some (.wrongState, []) :=
  ⟨⟨rfl, rfl, rfl⟩, by decide +kernel, by decide +kernel, by decide +kernel, by decide +kernel,
    by decide +kernel, by decide +kernel⟩

/-- A flush with a record still to append and with none, of an END and of a PAUSE while an older record
waits (R130, R131); a truncation's report of each operation, and an END
whose FIX still waits. -/
theorem witness_FlushAndTruncationFinished :
    let flushing (n : Nat) : State :=
      let a := withOp State.reset .finish .flushing
      { a with geo := { a.geo with flushLeft := some n } }
    let older (w : RunOperation) : State :=
      let a := withOp State.reset w .flushing
      { a with geo := { a.geo with flushLeft := some 0, out := [twistPoint 1 none] } }
    let reported (w : RunOperation) (left : Nat) (out : List WaitingFix) : State :=
      let a := withOp State.reset w .truncating
      { a with
        exc := { a.exc with truncation := some ⟨.pause, 2, left⟩ }
        base := { a.base with out := out } }
    let stage (o : Host.Outcome State Fault Refusal) := ((after o).run.op.map Operation.stage)
    (after (exec .flushFinished (flushing 0))).exc.evalList = [.truncation .runEnd]
      ∧ (after (exec .flushFinished (flushing 1))).exc.evalList = []
      ∧ (after (exec .flushFinished (older .finish))).exc.evalList = []
      ∧ (after (exec .flushFinished (older (.pause 3)))).exc.evalList = [.truncation .pause]
      ∧ stage (exec .truncationFinished (reported (.pause 3) 0 [])) = some .recordWaiting
      ∧ stage (exec .truncationFinished (reported (.pause 3) 1 [])) = some .truncating
      ∧ stage (exec .truncationFinished (reported .finish 0 [])) = some .recordWaiting
      ∧ (after (exec .truncationFinished (reported .finish 0 []))).ring.granted = some .runControl
      ∧ stage (exec .truncationFinished (reported .finish 0 [⟨⟨1, 2, 3, 4, false⟩, 0, false⟩]))
        = some .truncating := by decide +kernel

/-- The set with a strobe's items, the speed and the over-speed flag given. -/
def speedSet (k : Word32) (speed : Nat) (overSpeed late : Bool) : SampleSet :=
  { setZero with
    strobe := k
    late := late
    items := some
      { strobeZeroItems with strobe := k, speed := speed, flags := { noFlags with overSpeed := overSpeed } } }

/-- One point waiting for set 503, with set `k` held by the Resampler. -/
def holding (k : Word32) : State :=
  { State.reset with
    lanes := { State.reset.lanes with sets := [speedSet 503 77 true false] }
    resampler := { held := some (speedSet k 5 false true) }
    base := { resetBase with queue := [{ bracketed 12500000 with corrected := true }] } }

/-- The drained sample of a point whose set is unreleased and not first: the speed and the flags of its set,
with the left one held and late, and with the set held no set of its bracket (R71). -/
theorem witness_RunEndDrainsThePointQueue_sample :
    let out (k : Word32) := (holding k).drain.geo.inbox.map
      (fun x => (x.speed, x.flags.overSpeed, x.late, x.corrected, x.absent == .all true))
    out 502 = [(77, true, true, true, true)] ∧ out 501 = [(77, true, false, true, true)]
      ∧ ((holding 502).findSet 502).map SampleSet.late = some true
      ∧ ((holding 502).findSet 503).map SampleSet.late = some false := by decide +kernel

/-- A Run End with one point still queued, and with none: in PAUSED with an older record waiting, and in
RUNNING with records to flush (R94). -/
theorem witness_RunEndDrainsThePointQueue :
    let s (g : GeometryUnit) : State := { withOp State.reset .finish .baseEnding with geo := g }
    let queued : State := { s resetGeometry with base := { resetBase with queue := [bracketed 12500000] } }
    let t (x : State) := (after (exec .distanceBaseRunEnd x)).geo
    (s resetGeometry).geo.inbox = [] ∧ (s resetGeometry).base.queue = []
      ∧ (t (s { resetGeometry with out := [twistPoint 1 none] })).flushLeft = some 0
      ∧ (t (s { segmentAfter 4 with out := [] })).flushLeft = some 2
      ∧ (t queued).inbox.map SpatialSample.point = [50] ∧ (t queued).endFlush = some true
      ∧ (t (s { resetGeometry with inbox := [sampleAt 3] })).endFlush = some false := by decide +kernel

/-- An operation that is complete but for its response, and one that is not. -/
theorem witness_RunOperationCompletes :
    let up (w : RunOperation) (g : Stage) := withOp (inRun (atP0 (resetPort .up)) 4) w g
    answerAt (exec .runOperationComplete (up .finish .completing))
        = some (.ok, [natField 2 1, natField 4 4])
      ∧ answerAt (exec .runOperationComplete (up (.start 0 .up 0) .completing)) = some (.ok, [natField 2 1])
      ∧ (after (exec .runOperationComplete (up .finish .completing))).run.state = .idle
      ∧ (after (exec .runOperationComplete (up .finish .baseEnding))).run.op.isSome = true := by
  decide +kernel

/-- After a reset the geometry unit comes first; a marking record waits behind it. A grant kept, and what
run control is told of START, RESUME and PAUSE (R150, R152, R154). -/
theorem witness_AppendPortGrantsInRotation :
    let mark : Record := .mark ⟨1, .manual .p0, 2, 3, 4, false⟩
    let s : State := { State.reset with marking := { resetMarking with out := [mark] } }
    let kept : State := { s with
      geo := { s.geo with out := [twistPoint 1 none] }
      ring := { s.ring with granted := some .marking } }
    let told (w : RunOperation) : State :=
      let a := withOp State.reset w .recordWaiting
      after (exec .ringAppend { a with run := { a.run with state := .paused, out := [.resume ⟨.p0, 1⟩] } })
    State.reset.waiting .marking = none ∧ s.waiting .geometry = none ∧ s.waiting .exceedance = none
      ∧ s.waiting .marking = some mark ∧ s.grant.ring.granted = some .marking
      ∧ (after (exec .ringAppend s)).ring.rotation = .marking
      ∧ (after (exec .ringAppend s)).ring.head = 1 ∧ kept.grant = kept
      ∧ (after (exec .ringAppend kept)).ring.granted = some .geometry
      ∧ (told (.start 0 .up 0)).run.op.map Operation.stage = some (.starting false false false)
      ∧ (told .resume).run.op.map Operation.stage = some .geometryResuming
      ∧ (told .resume).run.state = .running ∧ (told (.start 0 .up 0)).run.state = .paused
      ∧ (told (.pause 3)).run.op.map Operation.stage = some .completing := by decide +kernel

theorem ringAppend_completes (s : State) : completes (execRingAppend s) := by
  unfold execRingAppend
  split
  · exact ⟨_, rfl⟩
  · split <;> exact ⟨_, rfl⟩

/-- A ring across the wrap with a record granted, and its append next. -/
def appending : State :=
  { State.reset with
    geo := { resetGeometry with out := [twistPoint 1 (some (-32767))] }
    ring := { contents := [⟨0xFFFFFFFF, 1, .resume ⟨.p0, 1⟩⟩], head := 0, oldest := 0xFFFFFFFF
              rotation := .base, granted := some .geometry }
    pending := [.ringAppend] }

theorem appending_ringLaw : appending.RingLaw := by
  refine ⟨by decide, by decide, ?_⟩
  intro i x h
  match i with
  | 0 => cases h; decide
  | n + 1 => simp [appending] at h

theorem appending_grantLaw : appending.GrantLaw := by
  constructor
  · intro w h
    cases h
    simp [appending, State.waiting]
  · intro h
    cases h

theorem appending_channelLaw : appending.ChannelLaw := by
  refine ⟨?_, ?_, ?_, ?_, ?_⟩ <;>
    simp [appending, State.reset, resetGeometry, resetExceedance, resetMarking, resetRun,
      Record.channelsOk, twistPoint, pointRecord, Channels.list, absentChannels, absentChannel, Channel.ok]

theorem witness_RingStaysConsecutive :
    appending.RingLaw ∧ appending.GrantLaw ∧ appending.ChannelLaw ∧ completes (step appending) :=
  ⟨appending_ringLaw, appending_grantLaw, appending_channelLaw,
    ringAppend_completes { appending with pending := [] }⟩

/-- The oldest number, the head, and a cursor one behind in each overrun mode (R162, R168). -/
theorem witness_PlacesOfASequenceNumber :
    let overran (mode : OverrunMode) :=
      ({ resetPort .up with cursor := 40107, overrun := mode } : PortState).overrunAt fullRing
    (overran .inStream).txQueue = [.gap 40107 1] ∧ (overran .inStream).cursor = 40108
      ∧ (overran .immediate).tx.map Transmission.what = some (.reply (.notice (.overrun 40107 1)))
      ∧ (overran .immediate).txQueue = [] ∧ (overran .immediate).cursor = 40108
      ∧ fullRing.isBehind 40107 = true ∧ fullRing.isBehind 40108 = false ∧ fullRing.isBehind 48300 = false
      ∧ (resetPort .up).cursor = 0 := by decide

/-- A record of a ring of numbered POINT records. -/
def pointAt (n : Nat) : RingRecord := ⟨BitVec.ofNat 32 n, 1, .point (twistPoint (n - 589) none)⟩

/-- The decimation of the example of 10.4: 402 and 404 of points 401 to 404. A stream that is PAUSED, a
full queue, a cursor at the head, a cursor behind in each overrun mode, and a queue with one place. -/
theorem witness_RefillCopiesPassingRecords :
    let ring : Ring := { contents := [pointAt 990, pointAt 991, pointAt 992, pointAt 993], head := 994
                         oldest := 990, rotation := .geometry, granted := none }
    let q : PortState := { resetPort .up with stream := .active, cursor := 990, decimation := 2 }
    let out (x : PortState) := ((x.refillQueue ring).txQueue.length, (x.refillQueue ring).cursor)
    let three : List DeliveryItem := List.replicate 3 (.gap 0 1)
    out q = (2, 994) ∧ out { q with stream := .paused } = (0, 990) ∧ out { q with cursor := 994 } = (0, 994)
      ∧ out { q with txQueue := three } = (3, 990)
      ∧ out { q with txQueue := three.take 2, decimation := 1 } = (3, 991)
      ∧ out { q with cursor := 989 } = (3, 994)
      ∧ out { q with cursor := 989, overrun := .immediate } = (2, 994)
      ∧ ({ q with cursor := 989, overrun := .immediate }.refillQueue ring).tx.isSome = true := by
  decide +kernel

/-- A Stream Start's body. -/
def streamBody (d choice : Byte) (n : Nat) : List Byte := leNat 2 0x7FE ++ [d, choice] ++ leNat 4 n

/-- Stream Start with decimation 64 and 65, choice 3 and 4, and SEQUENCE ahead, gone and at the head. -/
theorem witness_StreamStartOutcomes :
    let s (d choice : Byte) (n : Nat) : State :=
      { asking ⟨14, 5, streamBody d choice n⟩ with ring := fullRing }
    let out (d choice : Byte) (n : Nat) := (answerAt (exec (.streamStart .p0) (s d choice n))).map Prod.fst
    (s 64 3 0).canDispatch .p0 ⟨14, 5, streamBody 64 3 0⟩ [] ∧ ((s 64 3 0).ports.get .p0).stream = .none
      ∧ out 65 3 0 = some .invalidField ∧ out 0 3 0 = some .invalidField ∧ out 64 4 0 = some .invalidField
      ∧ out 64 2 48301 = some .notYet ∧ out 64 2 40107 = some .gone ∧ out 64 2 48300 = some .ok
      ∧ out 1 0 0 = some .ok :=
  ⟨⟨rfl, rfl, rfl⟩, rfl, by decide +kernel, by decide +kernel, by decide +kernel, by decide +kernel,
    by decide +kernel, by decide +kernel, by decide +kernel⟩

/-- Pause, Resume and Stop with a stream in each state. -/
theorem witness_StreamPauseResumeStopOutcomes :
    let s (code : Byte) (st : StreamState) (q : List DeliveryItem) : State :=
      atP0 { asked ⟨code, 5, []⟩ with stream := st, txQueue := q }
    let code (o : Host.Outcome State Fault Refusal) := (answerAt o).map Prod.fst
    (s 15 .active []).canDispatch .p0 ⟨15, 5, []⟩ []
      ∧ code (exec (.streamPause .p0) (s 15 .none [])) = some .noStream
      ∧ code (exec (.streamPause .p0) (s 15 .paused [])) = some .wrongState
      ∧ code (exec (.streamPause .p0) (s 15 .active [])) = some .ok
      ∧ (after (exec (.streamPause .p0) (s 15 .active [.gap 1 1]))).ports.p0.pendingPause = some 5
      ∧ code (exec (.streamResume .p0) (s 16 .active [])) = some .wrongState
      ∧ code (exec (.streamResume .p0) (s 16 .paused [])) = some .ok
      ∧ code (exec (.streamStop .p0) (s 17 .none [])) = some .noStream
      ∧ (after (exec (.streamStop .p0) (s 17 .active [.gap 9 1]))).ports.p0.cursor = 9 :=
  ⟨⟨rfl, rfl, rfl⟩, by decide +kernel, by decide +kernel, by decide +kernel, by decide +kernel,
    by decide +kernel, by decide +kernel, by decide +kernel, by decide +kernel⟩

/-- A ring of two records from the number 5 on. -/
def twoRing : Ring :=
  { contents := [pointAt 5, pointAt 6], head := 7, oldest := 5, rotation := .base, granted := none }

/-- Read Records: one record and two, at the head, gone, and a count of 256 and 257. -/
theorem witness_ReadRecordsOutcomes :
    let s (n count : Nat) : State := { asking ⟨18, 6, leNat 4 n ++ leNat 2 count⟩ with ring := twoRing }
    let out (n count : Nat) := exec (.readRecords .p0) (s n count)
    (s 5 1).canDispatch .p0 ⟨18, 6, leNat 4 5 ++ leNat 2 1⟩ []
      ∧ twoRing.isPresent 5 = true ∧ twoRing.isPresent 6 = true
      ∧ answerAt (out 7 1) = some (.notYet, []) ∧ answerAt (out 4 1) = some (.gone, [])
      ∧ answerAt (out 5 257) = some (.invalidField, [natField 2 1])
      ∧ (after (out 6 256)).ports.p0.readJob = none
      ∧ (after (out 5 1)).ports.p0.replies = [.response ⟨18, 6, .ok, [natField 2 1]⟩]
      ∧ (after (out 5 0)).ports.p0.readJob = none :=
  ⟨⟨rfl, rfl, rfl⟩, by decide, by decide, by decide +kernel, by decide +kernel, by decide +kernel,
    by decide +kernel, by decide +kernel, by decide +kernel⟩

/-- The ring of the Read Records witness is within its law. -/
theorem twoRing_ok : ringOk twoRing := by
  refine ⟨by decide, by decide, ?_⟩
  intro i x h
  match i with
  | 0 => cases h; decide
  | 1 => cases h; decide
  | n + 2 => simp [twoRing] at h

/-- Sections 5 and 6; an Await on another generation, on the current one, and a second one. -/
theorem witness_ReadSettingsAndAwaitChange :
    let read (n : Byte) := (answerAt (exec (.readSettings .p0) (asking ⟨3, 8, [n]⟩))).map Prod.fst
    let awaits (n : Byte) (g : Nat) := exec (.awaitChange .p0) (asking ⟨5, 8, n :: leNat 4 g⟩)
    let parked := atP0 { asked ⟨5, 8, 5 :: leNat 4 0⟩ with await := some ⟨.access, 0, 1⟩ }
    (asking ⟨3, 8, [5]⟩).canDispatch .p0 ⟨3, 8, [5]⟩ []
      ∧ read 5 = some .ok ∧ read 6 = some .invalidField
      ∧ (after (exec (.readSettings .p0) (asking ⟨3, 8, [5]⟩))).ports.p0.reservation = some ⟨.marking, 0⟩
      ∧ answerAt (awaits 6 0) = some (.invalidField, [natField 2 0])
      ∧ answerAt (awaits 5 1) = some (.ok, [natField 1 5, natField 4 0])
      ∧ (after (awaits 5 0)).ports.p0.await = some ⟨.marking, 0, 8⟩
      ∧ answerAt (exec (.awaitChange .p0) parked) = some (.wrongState, []) :=
  ⟨asking_canDispatch _, by decide +kernel, by decide +kernel, by decide +kernel, by decide +kernel,
    by decide +kernel, by decide +kernel, by decide +kernel⟩

/-- A MARKING image: enable, trigger 2, no offset, no merge, a pulse of 5 ms. -/
def markingBytes (enable pulse : Byte) : List Byte := [enable, 2] ++ leNat 2 0 ++ leNat 2 0 ++ [pulse]

/-- A Commit Settings of a section at P0, with the section reserved. -/
def committing (c : Section) (image : List Byte) : State :=
  atP0 { asked ⟨4, 8, BitVec.ofNat 8 c.code :: image⟩ with reservation := some ⟨c, 0⟩ }

/-- The checks of R179 in their order, on MARKING, SAMPLING, LIMITS and ACCESS. -/
theorem witness_CommitRefusals :
    let out (s : State) := answerAt (exec (.commitSettings .p0) s)
    let good := committing .marking (markingBytes 1 5)
    let bare := asking ⟨4, 8, 5 :: markingBytes 1 5⟩
    let staged := committing .limits (List.replicate 424 0)
    good.canDispatch .p0 ⟨4, 8, 5 :: markingBytes 1 5⟩ []
      ∧ out (asking ⟨4, 8, []⟩) = some (.badLength, [])
      ∧ out (asking ⟨4, 8, [6]⟩) = some (.invalidField, [natField 2 0])
      ∧ out (committing .marking [1]) = some (.badLength, [])
      ∧ out (permitted good (List.replicate 10 0)) = some (.notPermitted, [])
      ∧ out bare = some (.lostReservation, [])
      ∧ out (inRun (committing .sampling (List.replicate 13 0)) 1) = some (.runActive, [])
      ∧ out { staged with store := { staged.store with stagedLim := true } } = some (.applyPending, [])
      ∧ out (committing .marking (markingBytes 1 4)) = some (.invalidField, [natField 2 4])
      ∧ out (committing .access (List.replicate 30 0)) = some (.accessLockout, []) :=
  ⟨⟨rfl, rfl, rfl⟩, by decide +kernel, by decide +kernel, by decide +kernel, by decide +kernel,
    by decide +kernel, by decide +kernel, by decide +kernel, by decide +kernel, by decide +kernel⟩

/-- MARKING enabled, then disabled with a mark queued, from an image with it enabled and from one without:
the generation, the discard and none (R144). -/
theorem witness_CommitSucceeds :
    let s := committing .marking (markingBytes 1 5)
    let off := committing .marking (markingBytes 0 5)
    let queued : State :=
      { off with
        marking := firstMark
        store := { off.store with committed := { off.store.committed with marking := painting } } }
    s.canDispatch .p0 ⟨4, 8, 5 :: markingBytes 1 5⟩ []
      ∧ s.commitRefusal .p0 .marking (decodeSlots (sectionLayout .marking) (markingBytes 1 5)) = none
      ∧ (markingBytes 1 5).length = imageLength .marking
      ∧ answerAt (exec (.commitSettings .p0) s) = some (.ok, [natField 1 5, natField 4 1])
      ∧ (after (exec (.commitSettings .p0) queued)).marking.counts.discarded = 1
      ∧ (after (exec (.commitSettings .p0) { off with marking := firstMark })).marking = firstMark :=
  ⟨⟨rfl, rfl, rfl⟩, by decide +kernel, by decide, by decide +kernel, by decide +kernel,
    by decide +kernel⟩

/-- A CALIBRATION image that turns SL3 off while set 0 awaits SL3 alone: the lane is OFF, the set closes, and
the notice is placed before the OK (R56, R57, R62, R180); and a SAMPLING image with another rate and with the
same (R17, R43). -/
theorem witness_CommitSucceeds_installed :
    let image (c : Section) (v : List Int) := fieldBytes (slotFields (sectionLayout c) v)
    let filled : SampleSet :=
      { setZero with slots := ⟨some ⟨0, .head 1 2⟩, some ⟨0, .head 3 4⟩, some ⟨0, .inertial 5 6 7 8⟩, none⟩ }
    let a := committing .calibration (image .calibration (defaultCalibration.values.set 3 1))
    let s : State := { a with
      lanes := { a.lanes with sets := [filled, { setZero with strobe := 1 }] }
      ports := a.ports.set .p0 { a.ports.p0 with mask := ⟨false, true, false⟩ } }
    let t := after (exec (.commitSettings .p0) s)
    let rate (n : Int) := (after (exec (.commitSettings .p0) (committing .sampling (image .sampling
      (defaultSampling.values.set 0 n))))).tach.rateChanged
    s.commitRefusal .p0 .calibration (defaultCalibration.values.set 3 1) = none ∧ s.run.state = .idle
      ∧ t.lanes.lane.sl3.state = .off ∧ t.lanes.sets.map SampleSet.condition = [.closed, .opened]
      ∧ t.lanes.sets.map SampleSet.awaited = [⟨true, true, true, false⟩, ⟨true, true, true, false⟩]
      ∧ t.lanes.recent = [⟨0, 0, ⟨true, true, true, false⟩⟩]
      ∧ t.ports.p0.tx.map Transmission.what = some (.reply (.notice (.laneState .sl3 .seeking .off)))
      ∧ t.ports.p0.replies = [.response ⟨4, 8, .ok, [natField 1 1, natField 4 1]⟩]
      ∧ rate 1000 = true ∧ rate 2000 = false := by decide +kernel

/-- The first bad field of an image of each section at a bound of its range and just beyond; of LIMITS, a
threshold out of order, one level on, against the upper sense, and a parameter (R98 to R100). -/
theorem witness_CommitRefusals_badField :
    let sampling (i : Nat) (x : Int) :=
      firstBadField .sampling (([2000, 250, 1, 4, 20, 20, 12, 40, 20] : List Int).set i x)
    let calibration (i : Nat) (x : Int) := firstBadField .calibration (defaultCalibration.values.set i x)
    let odometry (i : Nat) (x : Int) := firstBadField .odometry (defaultOdometry.values.set i x)
    let limits (i j : Nat) (x y : Int) := firstBadField .limits ((defaultLimits.values.set i x).set j y)
    (sampling 4 64, sampling 4 65, sampling 0 3000) = (none, some 4, some 0)
      ∧ (calibration 18 5000, calibration 18 5001, calibration 14 0) = (none, some 18, some 14)
      ∧ (odometry 8 100, odometry 8 99, odometry 6 2) = (none, some 8, some 6)
      ∧ (limits 0 2 5 5, limits 0 2 5 4, limits 3 5 5 6) = (none, some 2, some 5)
      ∧ (limits 0 3 5 4, limits 0 3 5 5) = (none, some 3)
      ∧ (limits 0 192 0 1000, limits 0 192 0 1001, limits 0 223 0 0) = (none, some 192, some 223) := by
  decide +kernel

/-- A port with a good reservation, and a step. -/
theorem witness_ReservationsAndAccessStayGood :
    let s : State := { committing .marking (markingBytes 1 5) with pending := [.commitSettings .p0] }
    s.ReservationLaw ∧ s.AccessLaw ∧ completes (step s) := by
  refine ⟨?_, ⟨.p0, rfl⟩, ⟨_, rfl⟩⟩
  intro p r h
  cases p <;> cases h
  rfl

/-- A valid MARKING image and the whole length of ACCESS and LIMITS images. -/
theorem witness_CommittedImageReadsBack :
    (markingBytes 1 5).length = imageLength .marking
      ∧ firstBadField .marking (decodeSlots (sectionLayout .marking) (markingBytes 1 5)) = none
      ∧ imageLength .access = 30 ∧ imageLength .limits = 424
      ∧ firstBadField .access (decodeSlots (sectionLayout .access) (List.replicate 30 7)) = none := by
  decide +kernel

/-- A request frame of Identify with tag 9. -/
def identifyFrame : List Byte := linkFrameBytes 1 1 9 []

/-- The checks of R188, and a queue of 4 with a reply queue of 15 and of 16 items. -/
theorem witness_LinkFrameOutcomes :
    let q4 : PortState := { resetPort .up with
      requests := List.replicate 4 ⟨1, 0, []⟩, tx := some ⟨.stream (.gap 0 1), []⟩ }
    let n (k : Nat) : PortState := { q4 with replies := List.replicate k (.notice (.overrun 0 1)) }
    let out (q : PortState) (bytes : List Byte) := (after (exec (.linkFrame .p0 bytes) (atP0 q))).ports.p0
    (out (resetPort .down) identifyFrame).requests = [⟨1, 9, []⟩]
      ∧ (out (resetPort .down) identifyFrame).link = .up
      ∧ (out (resetPort .down) []).framing = 1 ∧ (out (resetPort .down) [0xC5]).framing = 1
      ∧ (out (resetPort .down) (identifyFrame.dropLast ++ [0])).crc = 1
      ∧ (out (resetPort .down) (linkFrameBytes 2 1 9 [])).framing = 1
      ∧ (out (n 15) identifyFrame).replies.length = 16 ∧ (out (n 16) identifyFrame).replies.length = 16 := by
  decide +kernel

/-- A body of the greatest length, and values at the ends of their fields' ranges. -/
theorem witness_FramesDecodeAsLaidOut :
    (List.replicate 1024 (0 : Byte)).length ≤ 1024
      ∧ signedOf 2 (ofLe (leInt 2 (-32768))) = -32768 ∧ signedOf 4 (ofLe (leInt 4 2147483647)) = 2147483647 := by
  refine ⟨by rw [List.length_replicate], by decide, by decide⟩

/-- An UP port with two items queued loses both, and its cursor goes back. -/
theorem witness_LossOfSignalOutcomes :
    let s := atP0 { resetPort .up with stream := .active, cursor := 9, txQueue := [.gap 5 2, .gap 8 1] }
    (s.ports.get .p0).link = .up ∧ s.resetPending ≠ some .p0 ∧ (s.ports.get .p1).link = .down
      ∧ (after (exec (.lossOfSignal .p0) s)).ports.p0.cursor = 5 := by decide +kernel

/-- Nothing sent; a reply sent with a reply, an item and nothing behind it, and while a Reset Part waits; an
item sent in each stream state. -/
theorem witness_TransmitFrameEndOutcomes :
    let reply : Option Transmission := some ⟨.reply (.notice (.overrun 0 1)), []⟩
    let item : Option Transmission := some ⟨.stream (.gap 5 2), []⟩
    let out (q : PortState) := (after (exec (.transmitFrameEnd .p0) (atP0 q))).ports.p0
    let up := resetPort .up
    let resetting : State := { atP0 { up with tx := reply } with resetPending := some .p0 }
    (out { up with tx := reply, replies := [.notice (.overrun 1 1)] }).replies = []
      ∧ (out { up with tx := reply, txQueue := [.gap 5 2] }).sendsStream = true
      ∧ (out { up with tx := reply }).tx = none
      ∧ (after (exec (.transmitFrameEnd .p0) resetting)).resetPending = some .p0
      ∧ (out { up with tx := item, txQueue := [.gap 5 2], stream := .active }).txQueue = []
      ∧ (out { up with tx := item, txQueue := [.gap 5 2], stream := .none }).tx = none
      ∧ (out { up with tx := item, txQueue := [.gap 5 2, .gap 8 1], stream := .pausing
                       pendingPause := some 3 }).stream = .pausing
      ∧ (out { up with tx := item, txQueue := [.gap 5 2], stream := .pausing
                       pendingPause := some 3 }).stream = .paused := by decide +kernel

/-- A record frame taken with one record left of its read list, and with two (R171, R194). -/
theorem witness_TransmitFrameEndOutcomes_readList :
    let q (left : List RingRecord) : PortState :=
      { resetPort .up with
        tx := some ⟨.reply (.notice (.overrun 0 1)), []⟩
        replies := [.readRecord 6 (pointAt 4) false]
        requests := [⟨18, 6, []⟩]
        readJob := some ⟨6, left, 3⟩ }
    let out (left : List RingRecord) :=
      (after (exec (.transmitFrameEnd .p0) (atP0 (q left)))).ports.p0
    ReplyItem.hasMore (.readRecord 6 (pointAt 4) false) = true
      ∧ (out [pointAt 5]).replies
        = [.readRecord 6 (pointAt 5) true, .response ⟨18, 6, .ok, [natField 2 3]⟩]
      ∧ (out [pointAt 5]).readJob = none ∧ (out [pointAt 5]).requests = []
      ∧ (out [pointAt 5, pointAt 6]).replies = [.readRecord 6 (pointAt 5) false]
      ∧ (out [pointAt 5, pointAt 6]).readJob = some ⟨6, [pointAt 6], 3⟩ := by decide +kernel

/-- A DOWN port, a busy one, a free one; a notice masked, enabled with 15 items and with 16. -/
theorem witness_PlacingAndNotices :
    let n : Notice := .tachState .a .healthy .failed
    let busy (k : Nat) (m : Bool) : PortState := { resetPort .up with
      tx := some ⟨.stream (.gap 0 1), []⟩, mask := ⟨false, false, m⟩
      replies := List.replicate k (.notice (.overrun 0 1)) }
    (resetPort .down).place (.notice n) = resetPort .down
      ∧ ((busy 0 true).place (.notice n)).replies = [.notice n]
      ∧ ((resetPort .up).place (.notice n)).tx.map Transmission.what = some (.reply (.notice n))
      ∧ (busy 3 false).offer n = busy 3 false ∧ ((busy 15 true).offer n).replies.length = 16
      ∧ ((busy 16 true).offer n).discarded = 1 := by decide +kernel

/-- Codes 0, 1, 22 and 23, and a body of one byte too many. -/
theorem witness_RequestsDecodedAtDispatch :
    let out (code : Byte) := answerAt (exec (.unknownRequest .p0) (asking ⟨code, 2, []⟩))
    (asking ⟨0, 2, []⟩).canDispatch .p0 ⟨0, 2, []⟩ [] ∧ (Instr.identify .p0, 1, 0) ∈ fixedRequests .p0
      ∧ out 0 = some (.unknownRequest, []) ∧ out 1 = none ∧ out 22 = none
      ∧ out 23 = some (.unknownRequest, [])
      ∧ answerAt (exec (.identify .p0) (asking ⟨1, 2, [0]⟩)) = some (.badLength, []) :=
  ⟨asking_canDispatch _, by decide, by decide +kernel, by decide +kernel, by decide +kernel,
    by decide +kernel, by decide +kernel⟩

/-- Identify, Read Status, and Set Port Options with the last mode and the first beyond. -/
theorem witness_PortRequests :
    let set (mode : Byte) := exec (.setPortOptions .p0) (asking ⟨6, 2, [mode, 0xFF]⟩)
    (asking ⟨1, 2, []⟩).canDispatch .p0 ⟨1, 2, []⟩ [] ∧ (asking ⟨2, 2, []⟩).canDispatch .p0 ⟨2, 2, []⟩ []
      ∧ (answerAt (exec (.readStatus .p0) (asking ⟨2, 2, []⟩))).map (fun x => fieldSize x.2) = some 276
      ∧ (after (set 1)).ports.p0.overrun = .immediate ∧ (after (set 1)).ports.p0.mask = ⟨true, true, true⟩
      ∧ answerAt (set 2) = some (.invalidField, [natField 2 0]) :=
  ⟨asking_canDispatch _, asking_canDispatch _, by decide +kernel, by decide +kernel, by decide +kernel,
    by decide +kernel⟩

/-- A port with its queues full, and a step. -/
theorem witness_PortQueuesStayBounded :
    let s : State := { atP0 { resetPort .up with
        requests := List.replicate 4 ⟨1, 0, []⟩, stream := .active
        txQueue := List.replicate 3 (.gap 0 1) } with pending := [.identify .p0] }
    s.QueueLaw ∧ s.DownLaw ∧ completes (step s) := by
  refine ⟨?_, ?_, ⟨_, rfl⟩⟩
  · intro p
    cases p <;> exact ⟨by decide, by decide, by decide⟩
  · intro p h
    cases p
    · cases h
    · exact ⟨rfl, rfl, rfl, rfl, rfl, rfl, rfl, rfl, rfl⟩
    · exact ⟨rfl, rfl, rfl, rfl, rfl, rfl, rfl, rfl, rfl⟩

end Sys2Proof.Tests
end

section
/-! PROOFS. Levels and zones of a channel value (06): each function of R102 and R103 by its cases. -/

namespace Sys2Proof.Machine

/-! ## Levels (R102) -/

theorem reaches_iff {e : Sense} {v : Int} {t : Option Int} :
    reaches e v t = true ↔ ∃ x, t = some x ∧ beyond e v x = true := by
  cases t <;> simp [reaches]

/-- A level above 0 is that of a threshold the value reaches. -/
theorem reaches_threshold_levelOf {l : LimitsImage} {c cls : Nat} {e : Sense} {v : Int}
    (h : 1 ≤ levelOf l c cls e v) : reaches e v (l.threshold c cls e (levelOf l c cls e v)) = true := by
  unfold levelOf at h ⊢
  split_ifs at h ⊢ with h3 h2 h1
  · exact h3
  · exact h2
  · exact h1
  · omega

/-- No threshold above a value's level is reached: the level is the greatest. -/
theorem not_reaches_of_levelOf_lt {l : LimitsImage} {c cls : Nat} {e : Sense} {v : Int} {m : Nat}
    (h : levelOf l c cls e v < m) (hm : m ≤ 3) : reaches e v (l.threshold c cls e m) = false := by
  unfold levelOf at h
  split_ifs at h with h3 h2 h1
  · omega
  · obtain rfl : m = 3 := by omega
    exact Bool.eq_false_of_not_eq_true h3
  · obtain rfl | rfl : m = 2 ∨ m = 3 := by omega
    · exact Bool.eq_false_of_not_eq_true h2
    · exact Bool.eq_false_of_not_eq_true h3
  · obtain rfl | rfl | rfl : m = 1 ∨ m = 2 ∨ m = 3 := by omega
    · exact Bool.eq_false_of_not_eq_true h1
    · exact Bool.eq_false_of_not_eq_true h2
    · exact Bool.eq_false_of_not_eq_true h3

/-! ## The closing reference and the hysteresis limit (R103) -/

theorem closingReference_eq_some_iff {l : LimitsImage} {c cls : Nat} {e : Sense} {t : Int} :
    closingReference l c cls e = some t ↔
      l.threshold c cls e 1 = some t
      ∨ (l.threshold c cls e 1 = none ∧ l.threshold c cls e 2 = some t)
      ∨ (l.threshold c cls e 1 = none ∧ l.threshold c cls e 2 = none
        ∧ l.threshold c cls e 3 = some t) := by
  unfold closingReference
  split <;> simp [*]

theorem closingReference_eq_none {l : LimitsImage} {c cls : Nat} {e : Sense}
    (h1 : l.threshold c cls e 1 = none) (h2 : l.threshold c cls e 2 = none)
    (h3 : l.threshold c cls e 3 = none) : closingReference l c cls e = none := by
  simp [closingReference, h1, h2, h3]

/-- With no hysteresis the limit is the closing reference itself, so that the band is empty. -/
@[simp] theorem hysteresisLimit_zero (e : Sense) (t : Int) : hysteresisLimit e t 0 = t := by
  cases e <;> simp [hysteresisLimit]

/-! ## Zones (R103) -/

@[simp] theorem zoneOf_none (l : LimitsImage) (c cls : Nat) (e : Sense) :
    zoneOf l c cls e none = .absent := rfl

theorem zoneOf_of_closingReference_none {l : LimitsImage} {c cls : Nat} {e : Sense}
    (h : closingReference l c cls e = none) (v : Int) : zoneOf l c cls e (some v) = .noLimit := by
  simp [zoneOf, h]

/-- The zone of a value that is present, against a closing reference `t`. -/
theorem zoneOf_of_closingReference {l : LimitsImage} {c cls : Nat} {e : Sense} {t : Int}
    (h : closingReference l c cls e = some t) (v : Int) :
    zoneOf l c cls e (some v) =
      if beyond e v t then .exceeding (levelOf l c cls e v)
      else if beyond e v (hysteresisLimit e t (l.paramsOf c).hysteresis) then .band
      else .inside := by
  simp [zoneOf, h]

/-- A channel without hysteresis has no band. -/
theorem zoneOf_ne_band {l : LimitsImage} {c cls : Nat} {e : Sense}
    (h0 : (l.paramsOf c).hysteresis = 0) (v : Option Int) : zoneOf l c cls e v ≠ .band := by
  cases v with
  | none => simp
  | some v =>
    cases hr : closingReference l c cls e with
    | none => simp [zoneOf_of_closingReference_none hr]
    | some t =>
      rw [zoneOf_of_closingReference hr, h0, hysteresisLimit_zero]
      split <;> simp

/-- Beyond the closing reference the zone is EXCEEDING, with the greatest level whose threshold is
present and reached. -/
theorem zoneOf_exceeding_greatest {l : LimitsImage} {c cls : Nat} {e : Sense} {t v : Int}
    (h : closingReference l c cls e = some t) (hb : beyond e v t = true) :
    ∃ n, zoneOf l c cls e (some v) = .exceeding n ∧ 1 ≤ n ∧ n ≤ 3
      ∧ (∃ x, l.threshold c cls e n = some x ∧ beyond e v x = true)
      ∧ ∀ m x, n < m → m ≤ 3 → l.threshold c cls e m = some x → ¬ beyond e v x = true := by
  have hpos : 1 ≤ levelOf l c cls e v := one_le_levelOf h hb
  refine ⟨levelOf l c cls e v, ?_, hpos, levelOf_le ..,
    reaches_iff.mp (reaches_threshold_levelOf hpos), ?_⟩
  · simp [zoneOf_of_closingReference h, hb]
  · intro m x hlt hm hx hbx
    have hreach : reaches e v (l.threshold c cls e m) = true := reaches_iff.mpr ⟨x, hx, hbx⟩
    simp [not_reaches_of_levelOf_lt hlt hm] at hreach

/-- Settles O22. The statement writes `beyond` and the hysteresis limit out per sense; with these tied
to the model's own functions, each clause is the lemma above on its case. -/
theorem zoneOfAValue : Obligations.ZoneOfAValue := by
  unfold Obligations.ZoneOfAValue
  intro l c q e isBeyond present absent h far isReference
  have beyond_iff (v x : Int) : isBeyond v x ↔ beyond e v x = true := by
    cases e <;> simp [isBeyond, beyond]
  have far_eq (t : Int) : far t = hysteresisLimit e t (l.paramsOf c).hysteresis := by
    cases e <;> rfl
  refine ⟨zoneOf_none .., fun h1 h2 h3 => zoneOf_of_closingReference_none
    (closingReference_eq_none h1 h2 h3), fun t v href => ?_⟩
  have hr : closingReference l c q e = some t := closingReference_eq_some_iff.mpr href
  simp only [beyond_iff, far_eq]
  refine ⟨zoneOf_exceeding_greatest hr, fun hb hfar => ?band, fun hb hfar => ?inside, fun h0 => ?noBand⟩
  case band => simp [zoneOf_of_closingReference hr, hb, hfar]
  case inside => simp [zoneOf_of_closingReference hr, hb, hfar]
  case noBand => exact zoneOf_ne_band (Int.ofNat_eq_zero.mp h0) _

end Sys2Proof.Machine
end

section
/-! PROOFS. A tracker on each zone (R116 to R121), and the record of a closing that is not suppressed. -/

namespace Sys2Proof.Machine

/-! ## What an EXCEEDING point leaves (R117, R118, R124, R125) -/

/-- R124 changes no field of the exceedance in progress but the urgent indicator. -/
theorem applyUrgent_progress (x : Judging) (c : Nat) (e : Sense) (v : Int) (g : Progress) (y : Tally) :
    ∃ u, (applyUrgent x c e v g y).1 = { g with urgent := u } := by
  unfold applyUrgent
  split
  · exact ⟨true, rfl⟩
  · exact ⟨g.urgent, rfl⟩

/-- R125 changes no field of the exceedance in progress but the mark outcome. -/
theorem applyMark_progress (x : Judging) (c : Nat) (e : Sense) (g : Progress) (y : Tally) :
    ∃ m, (applyMark x c e g y).1 = { g with mark := m } := by
  unfold applyMark
  split
  · exact ⟨some _, rfl⟩
  · exact ⟨g.mark, rfl⟩

/-- R124 and R125 together leave every other field as it is. -/
theorem applyBoth_progress (x : Judging) (c : Nat) (e : Sense) (v : Int) (g : Progress) (y : Tally) :
    ∃ u m, (applyBoth x c e v g y).1 = some { g with urgent := u, mark := m } := by
  obtain ⟨u, hu⟩ := applyUrgent_progress x c e v g y
  obtain ⟨m, hm⟩ := applyMark_progress x c e (applyUrgent x c e v g y).1 (applyUrgent x c e v g y).2
  exact ⟨u, m, congrArg some (by rw [hm, hu])⟩

@[simp] theorem Progress.exceed_clearCount (g : Progress) (e : Sense) (r : PointRecord)
    (cls level : Nat) (v : Int) : (g.exceed e r cls level v).clearCount = 0 := by
  unfold Progress.exceed Progress.judgePeak
  split <;> rfl

@[simp] theorem Progress.exceed_absentRun (g : Progress) (e : Sense) (r : PointRecord)
    (cls level : Nat) (v : Int) : (g.exceed e r cls level v).absentRun = 0 := by
  unfold Progress.exceed Progress.judgePeak
  split <;> rfl

/-! ## A tracker by the zone of its channel's value (R116 to R121) -/

section
variable {x : Judging} {c : Nat} {e : Sense}

theorem judge_clear_of_absent (h : zoneOf x.limits c x.cls e (x.record.value c) = .absent) (y : Tally) :
    judge x c e none y = (none, y) := by
  simp [judge, judgeClear, h]

theorem judge_open_of_exceeding {n : Nat}
    (h : zoneOf x.limits c x.cls e (x.record.value c) = .exceeding n) (g : Progress) (y : Tally) :
    judge x c e (some g) y =
      applyBoth x c e ((x.record.value c).getD 0)
        (g.exceed e x.record x.cls n ((x.record.value c).getD 0)) y := by
  simp [judge, judgeOpen, h]

theorem judge_open_of_band (h : zoneOf x.limits c x.cls e (x.record.value c) = .band)
    (g : Progress) (y : Tally) :
    judge x c e (some g) y = (some { g.noteCorrection x.record with absentRun := 0 }, y) := by
  simp [judge, judgeOpen, h]

theorem judge_open_of_inside (h : zoneOf x.limits c x.cls e (x.record.value c) = .inside)
    (g : Progress) (y : Tally) :
    judge x c e (some g) y =
      if (x.limits.paramsOf c).closeCount ≤ g.clearCount + 1 then
        x.close c e .count
          { g.noteCorrection x.record with clearCount := g.clearCount + 1, absentRun := 0 } y
      else
        (some { g.noteCorrection x.record with clearCount := g.clearCount + 1, absentRun := 0 }, y) := by
  simp [judge, judgeOpen, h]

theorem judge_open_of_absent (h : zoneOf x.limits c x.cls e (x.record.value c) = .absent)
    (g : Progress) (y : Tally) :
    judge x c e (some g) y =
      if (x.limits.paramsOf c).absentRun ≤ g.absentRun + 1 then
        x.close c e .absentRun
          { g.noteCorrection x.record with containsAbsent := true, absentRun := g.absentRun + 1 } y
      else
        (some { g.noteCorrection x.record with containsAbsent := true, absentRun := g.absentRun + 1 },
          y) := by
  simp [judge, judgeOpen, h]

/-- An EXCEEDING value keeps the tracker OPEN and returns both counts to 0 (R117). -/
theorem judge_open_resets_counts {n : Nat}
    (h : zoneOf x.limits c x.cls e (x.record.value c) = .exceeding n) (g : Progress) (y : Tally) :
    ∃ g', (judge x c e (some g) y).1 = some g' ∧ g'.clearCount = 0 ∧ g'.absentRun = 0 := by
  rw [judge_open_of_exceeding h]
  obtain ⟨u, m, hg⟩ := applyBoth_progress x c e ((x.record.value c).getD 0)
    (g.exceed e x.record x.cls n ((x.record.value c).getD 0)) y
  exact ⟨_, hg, by simp, by simp⟩

end

/-! ## The record of a closing (R126, R128) -/

/-- From L_min on a closing hands on one EXCEEDANCE record. -/
theorem closeExceedance_out {l : LimitsImage} {c : Nat} {g : Progress}
    (h : (l.paramsOf c).minLength ≤ g.lengthPoints) (sam : SamplingImage) (e : Sense) (why : Closing)
    (y : Tally) : (closeExceedance l sam c e why g y).out
      = y.out ++ [exceedanceRecord sam.interval (y.number + 1) c e why g] := by
  obtain ⟨hlt, -⟩ | ⟨-, hclose⟩ := closeExceedance_cases l sam c e why g y
  · omega
  · rw [hclose]

/-- Settles O26: each clause is the lemma above on the tracker and the zone. Without hysteresis BAND is
excluded, which leaves INSIDE for a value that is present, has a limit and does not exceed it. -/
theorem openTrackerWithin : Obligations.OpenTrackerWithin := by
  unfold Obligations.OpenTrackerWithin
  intro x c e g y z since inside absent
  refine ⟨fun hz => judge_open_of_band hz g y, fun h0 => ⟨zoneOf_ne_band h0 _, ?onlyInside⟩,
    fun n hz => judge_open_resets_counts hz g y, fun hz => judge_open_of_inside hz g y,
    fun hz => judge_open_of_absent hz g y, fun hz => judge_clear_of_absent hz y,
    fun hlen => ⟨?byCount, ?byAbsentRun⟩⟩
  case onlyInside =>
    have hband : z ≠ .band := zoneOf_ne_band h0 _
    intro habsent hlimit hexceeding
    cases hz : z with
    | absent => exact absurd hz habsent
    | noLimit => exact absurd hz hlimit
    | exceeding n => exact absurd hz (hexceeding n)
    | band => exact absurd hz hband
    | inside => rfl
  case byCount => exact ⟨_, closeExceedance_out hlen .., rfl, rfl, rfl⟩
  case byAbsentRun => exact ⟨_, closeExceedance_out hlen .., rfl, rfl, rfl, rfl⟩

end Sys2Proof.Machine
end

section
/-! PROOFS. What each command can change: one equation for each command, which names the parts of the state
that the command may write. Every law that all steps keep goes through it. -/

namespace Sys2Proof.Machine

/-! ## Shared shapes of a step -/

/-- What dispatch answers has a property that `s`, a refusal for the length and the execution have (R189,
R190). -/
theorem State.serve_next {P : State → Prop} {s t : State} {p : Port} {code n : Nat} {f : Request → State}
    (h : Host.Outcome.next (s.serve p code n f) = (.next t : Host.Outcome State Fault Refusal))
    (hs : P s) (hbad : ∀ r, P (s.refuse p r .badLength))
    (hf : ∀ r, s.frontRequest p code = some r → r.body.length = n → P (f r)) : P t := by
  cases h
  unfold State.serve
  split
  · exact hs
  · next r hr =>
    split
    · next hl => exact hf r hr hl
    · exact hbad r

/-- `t` is the part started again from `s`, by the reset line or by a Reset Part (R198, R199). -/
def State.restartsTo (s t : State) : Prop :=
  t = restarted s.pending resetStore (.all .down)
    ∨ ∃ links, t = restarted s.pending s.store.afterResetPart links

/-- The commands that can start the part again: a reset comes at the end of three of them under a condition
only (R198, R199). -/
def mayRestart : Instr → Bool
  | .resetLine | .resetPart _ | .lossOfSignal _ | .transmitFrameEnd _ => true
  | _ => false

/-- Closing and releasing sets, as an equation: what of the state it may write (R64 to R67). -/
theorem State.SetFrame.eq {s t : State} (h : State.SetFrame s t) :
    ∃ lanes resampler ports cal staged queue inbox, t = { s with
      lanes := lanes, resampler := resampler, ports := ports
      store := { s.store with installedCal := cal, stagedCal := staged }
      base := { s.base with queue := queue }, geo := { s.geo with inbox := inbox } } := by
  obtain ⟨hpending, htime, htach, hstrobe, hexc, hmarking, hrun, hring, hreset, hcommitted, hgenerations,
    hinstalledLim, hstagedLim, hbase, hgeo⟩ := h
  refine ⟨t.lanes, t.resampler, t.ports, t.store.installedCal, t.store.stagedCal, t.base.queue,
    t.geo.inbox, ?_⟩
  simp only [← hbase, ← hgeo, ← hpending, ← htime, ← htach, ← hstrobe, ← hexc, ← hmarking, ← hrun, ← hring,
    ← hreset, ← hcommitted, ← hgenerations, ← hinstalledLim, ← hstagedLim]

/-- What holds of `s` whatever the closing and the release of sets wrote holds of the state they answer. -/
theorem State.SetFrame.elim {P : State → Prop} {s t : State} (h : State.SetFrame s t)
    (hP : ∀ lanes resampler ports cal staged queue inbox, P { s with
      lanes := lanes, resampler := resampler, ports := ports
      store := { s.store with installedCal := cal, stagedCal := staged }
      base := { s.base with queue := queue }, geo := { s.geo with inbox := inbox } }) : P t := by
  obtain ⟨_, _, _, _, _, _, _, rfl⟩ := h.eq
  exact hP ..

/-- `t` differs from `s` at most in the parts that the command may write. Where a part is written field by
field, the fields not named are kept; `granted` is the append port's grant (R163). The two resets are
`State.restartsTo`. -/
def State.mayBecome (s t : State) : Instr → Prop
  | .resetLine => False
  | .pulseCandidate _ _ | .glitch _ => ∃ tach, t = { s with tach := tach }
  | .pulseAccept _ => ∃ tach ports, t = { s with tach := tach, ports := ports }
  | .sampleStrobe => ∃ time tach strobe lanes resampler ports cal staged queue items inbox, t = { s with
      time := time, tach := tach, strobe := strobe, lanes := lanes, resampler := resampler, ports := ports
      store := { s.store with installedCal := cal, stagedCal := staged }
      base := { s.base with queue := queue, inbox := items }, geo := { s.geo with inbox := inbox } }
  | .distanceBaseStrobe => ∃ lanes resampler ports marking cal staged inbox granted, ∃ base : DistanceBase, t = { s with
      lanes := lanes, resampler := resampler, ports := ports, marking := marking
      store := { s.store with installedCal := cal, stagedCal := staged }
      base := { base with out := s.base.out }, geo := { s.geo with inbox := inbox }
      ring := { s.ring with granted := granted } }
  | .distanceStrobeEnd _ => ∃ ds, t = { s with base := { s.base with ds := ds } }
  | .markerPulseEnd => ∃ line, t = { s with marking := { s.marking with line := line } }
  | .laneFrame _ _ => ∃ lanes resampler ports cal staged queue inbox, t = { s with
      lanes := lanes, resampler := resampler, ports := ports
      store := { s.store with installedCal := cal, stagedCal := staged }
      base := { s.base with queue := queue }, geo := { s.geo with inbox := inbox } }
  | .spatialSampleTake => ∃ geo granted, t = { s with
      geo := geo, ring := { s.ring with granted := granted } }
  | .ringAppend => ∃ geo out exc marking run ring ports lim staged, t = { s with
      geo := geo, base := { s.base with out := out }, exc := exc, marking := marking, run := run
      ring := ring, ports := ports
      store := { s.store with installedLim := lim, stagedLim := staged } }
  | .pointEvaluation | .truncation => ∃ exc marking lim staged granted, t = { s with
      exc := exc, marking := marking, ring := { s.ring with granted := granted }
      store := { s.store with installedLim := lim, stagedLim := staged } }
  | .linkFrame _ _ | .lossOfSignal _ | .transmitFrameEnd _ | .unknownRequest _ | .identify _
  | .readStatus _ | .setPortOptions _ | .readSettings _ | .awaitChange _ | .streamStart _
  | .streamPause _ | .streamResume _ | .streamStop _ | .readRecords _ | .readLaneHealth _
  | .readLaneSample _ => ∃ ports, t = { s with ports := ports }
  | .resetPart _ => ∃ ports reset, t = { s with ports := ports, resetPending := reset }
  | .commitSettings _ => ∃ ports store lanes resampler changed queue inbox, ∃ marking : MarkingUnit, t = { s with
      ports := ports, store := store, lanes := lanes, resampler := resampler
      marking := { marking with out := s.marking.out }
      tach := { s.tach with rateChanged := changed }
      base := { s.base with queue := queue }, geo := { s.geo with inbox := inbox } }
  | .runStart _ | .runResume _ => ∃ run ports granted, t = { s with
      run := run, ports := ports, ring := { s.ring with granted := granted } }
  | .runPause _ | .runEnd _ => ∃ ports, ∃ run : RunControl, t = { s with
      run := { run with out := s.run.out }, ports := ports }
  | .geometryRunStart | .geometryRunResume => ∃ geo : GeometryUnit, ∃ run : RunControl, t = { s with
      geo := { geo with out := s.geo.out }, run := { run with out := s.run.out } }
  | .exceedanceRunStart => ∃ exc : ExceedanceUnit, ∃ run : RunControl, t = { s with
      exc := { exc with out := s.exc.out, evalList := s.exc.evalList, turn := s.exc.turn }
      run := { run with out := s.run.out } }
  | .markingRunStart => ∃ marking : MarkingUnit, ∃ run : RunControl, t = { s with
      marking := { marking with out := s.marking.out }, run := { run with out := s.run.out } }
  | .distanceBaseRunStart => ∃ base : DistanceBase, ∃ run : RunControl, t = { s with
      base := { base with out := s.base.out }, run := { run with out := s.run.out } }
  | .geometryRunPause | .distanceBaseRunEnd => ∃ geo granted, ∃ base : DistanceBase, ∃ run : RunControl, t = { s with
      base := { base with out := s.base.out }, geo := geo, run := { run with out := s.run.out }
      ring := { s.ring with granted := granted } }
  | .flushFinished => ∃ left list, ∃ run : RunControl, t = { s with
      geo := { s.geo with flushLeft := left }, exc := { s.exc with evalList := list }
      run := { run with out := s.run.out } }
  | .truncationFinished => ∃ truncation queue counts correction run granted, t = { s with
      exc := { s.exc with truncation := truncation }
      marking := { s.marking with queue := queue, counts := counts }
      base := { s.base with correction := correction }
      run := run, ring := { s.ring with granted := granted } }
  | .runOperationComplete => ∃ lim staged ports, ∃ run : RunControl, t = { s with
      store := { s.store with installedLim := lim, stagedLim := staged }
      run := { run with out := s.run.out }, ports := ports }
  | .positionFix _ => ∃ base ports granted, t = { s with
      base := base, ports := ports, ring := { s.ring with granted := granted } }
  | .classChange _ => ∃ queue ports, t = { s with
      exc := { s.exc with classQueue := queue }, ports := ports }
  | .manualMark _ => ∃ queue counts ports, t = { s with
      marking := { s.marking with queue := queue, counts := counts }, ports := ports }
  | .clearLaneFlags _ => ∃ lanes ports, t = { s with lanes := lanes, ports := ports }

/-! ## Events and steps of the units -/

theorem execPulseAccept_mayBecome {x : TachId} {s t : State} (h : execPulseAccept x s = .next t) :
    s.mayBecome t (.pulseAccept x) := by
  cases h
  exact ⟨_, _, offerAll_eq _ _⟩

/-- `s` with strobe `k` issued at a moment and taken by the tachometer unit, before its notices are offered
and the lane receivers take it (R4, R42). -/
def State.strobeIssued (s : State) (k : Word32) (moment : Nat) : State :=
  let r := s.tach.takeStrobe s.store.committed.odometry s.strobe.period k
  { s with
    time := moment
    tach := r.1
    strobe := { number := k, period := strobePeriod s.store.committed.sampling.rate, ss := k.setWidth 8 }
    base := { s.base with inbox := s.base.inbox ++ [r.2.1] } }

theorem State.issueStrobe_eq (s : State) (k : Word32) (moment : Nat) :
    s.issueStrobe k moment
      = let r := s.tach.takeStrobe s.store.committed.odometry s.strobe.period k
        ((s.strobeIssued k moment).offerAll r.2.2).lanesTakeStrobe k r.2.1 := rfl

/-- What follows on the tachometer unit's taking of a strobe is within the frame of closing sets. -/
theorem State.SetFrame.ofIssue (s : State) (k : Word32) (moment : Nat) :
    State.SetFrame (s.strobeIssued k moment) (s.issueStrobe k moment) :=
  (State.SetFrame.ofNotices _ _).trans (State.SetFrame.ofTake _ _ _)

theorem execSampleStrobe_mayBecome {s t : State} (h : execSampleStrobe s = .next t) :
    s.mayBecome t .sampleStrobe := by
  cases h
  exact State.SetFrame.elim (P := fun t => s.mayBecome t .sampleStrobe) (State.SetFrame.ofIssue _ _ _)
    fun _ _ _ _ _ _ _ => ⟨_, _, _, _, _, _, _, _, _, _, _, rfl⟩

/-- The generation of points writes nothing of the FIX records waiting. -/
theorem DistanceBase.generateFrom_out (b : DistanceBase) (sam : SamplingImage) (o : OdometryImage)
    (k : Word32) (left right : Int) (j n : Nat) : (b.generateFrom sam o k left right j n).out = b.out := by
  induction n generalizing b j with
  | zero => rfl
  | succ n ih => exact ih _ _

/-- The taking of a strobe's items writes nothing of the FIX records waiting. -/
theorem DistanceBase.takeItems_out (b : DistanceBase) (sam : SamplingImage) (o : OdometryImage)
    (i : StrobeItems) :
    ∃ b' : DistanceBase, b.takeItems sam o i = { b' with out := b.out } := by
  refine ⟨b.takeItems sam o i, ?_⟩
  have h : (b.takeItems sam o i).out = b.out := by
    unfold DistanceBase.takeItems
    dsimp only
    split
    · exact DistanceBase.generateFrom_out ..
    · rfl
  rw [← h]

theorem execDistanceBaseStrobe_mayBecome {s t : State} (h : execDistanceBaseStrobe s = .next t) :
    s.mayBecome t .distanceBaseStrobe := by
  unfold execDistanceBaseStrobe at h
  split at h
  · cases h
    exact ⟨_, _, _, _, _, _, _, _, s.base, rfl⟩
  · next i rest hi =>
    obtain ⟨b, hb⟩ := DistanceBase.takeItems_out { s.base with inbox := rest } s.store.committed.sampling
      s.store.committed.odometry i
    simp only [hb] at h
    cases h
    exact State.SetFrame.elim (P := fun t => s.mayBecome t .distanceBaseStrobe)
      (State.SetFrame.ofReady _)
      fun _ _ _ _ _ queue _ => ⟨_, _, _, _, _, _, _, _, { b with queue := queue }, rfl⟩

theorem execMarkerPulseEnd_mayBecome {s t : State} (h : execMarkerPulseEnd s = .next t) :
    s.mayBecome t .markerPulseEnd := by
  unfold execMarkerPulseEnd at h
  split at h <;> cases h <;> exact ⟨_, rfl⟩

theorem execLaneFrame_mayBecome {l : Lane} {bytes : List Byte} {s t : State}
    (h : execLaneFrame l bytes s = .next t) : s.mayBecome t (.laneFrame l bytes) := by
  unfold execLaneFrame at h
  dsimp only at h
  split at h
  · cases h; exact ⟨_, _, _, _, _, _, _, rfl⟩
  · split at h
    · cases h; exact ⟨_, _, _, _, _, _, _, rfl⟩
    · cases h; exact ⟨_, _, _, _, _, _, _, rfl⟩
    · next q reading _ => cases h; exact (State.SetFrame.ofFrame s l q reading).eq

theorem execSpatialSampleTake_mayBecome {s t : State} (h : execSpatialSampleTake s = .next t) :
    s.mayBecome t .spatialSampleTake := by
  unfold execSpatialSampleTake at h
  split at h <;> cases h <;> exact ⟨_, _, rfl⟩

/-! ## The exceedance unit and the append port -/

/-- Taking up a staged LIMITS image: what of the store it may write (R101). -/
theorem Store.takeUpLimits_eq (st : Store) :
    ∃ lim staged, st.takeUpLimits = { st with installedLim := lim, stagedLim := staged } := by
  unfold Store.takeUpLimits
  split
  · exact ⟨_, _, rfl⟩
  · exact ⟨st.installedLim, st.stagedLim, rfl⟩

/-- A truncation going on: what of the state it may write (R129, R131). -/
theorem State.truncateFrom_eq (s : State) (cause : TruncationCause) (closed next : Nat) :
    ∃ exc marking lim staged, s.truncateFrom cause closed next = { s with
      exc := exc, marking := marking
      store := { s.store with installedLim := lim, stagedLim := staged } } := by
  unfold State.truncateFrom
  dsimp only
  split
  · exact ⟨_, _, _, _, rfl⟩
  · cases cause with
    | pause => exact ⟨_, _, _, _, rfl⟩
    | runEnd =>
      obtain ⟨lim, staged, h⟩ := s.store.takeUpLimits_eq
      exact ⟨_, _, lim, staged, by rw [← h]; rfl⟩

/-- The evaluation of a point: what of the state it may write (R115). -/
theorem State.evaluate_eq (s : State) (r : PointRecord) (rest : List EvalItem) :
    ∃ exc marking lim staged, s.evaluate r rest = { s with
      exc := exc, marking := marking
      store := { s.store with installedLim := lim, stagedLim := staged } } := by
  obtain ⟨lim, staged, h⟩ := s.store.takeUpLimits_eq
  unfold State.evaluate
  dsimp only
  rw [h]
  split <;> exact ⟨_, _, lim, staged, rfl⟩

theorem execPointEvaluation_mayBecome {s t : State} (h : execPointEvaluation s = .next t) :
    s.mayBecome t .pointEvaluation := by
  unfold execPointEvaluation at h
  split at h
  · next r rest _ =>
    split at h <;> cases h
    · obtain ⟨_, _, _, _, hs⟩ := s.evaluate_eq r rest
      exact ⟨_, _, _, _, _, by rw [hs]; rfl⟩
    · exact ⟨_, _, _, _, _, rfl⟩
  · cases h; exact ⟨_, _, _, _, _, rfl⟩

theorem execTruncation_mayBecome {s t : State} (h : execTruncation s = .next t) :
    s.mayBecome t .truncation := by
  unfold execTruncation at h
  split at h
  · next cause rest _ =>
    split at h <;> cases h
    · obtain ⟨_, _, _, _, hs⟩ := State.truncateFrom_eq { s with exc := { s.exc with evalList := rest } }
        cause (openCount s.exc.trackers) 0
      exact ⟨_, _, _, _, _, by unfold State.truncate; rw [hs]; rfl⟩
    · exact ⟨_, _, _, _, _, rfl⟩
  · cases h; exact ⟨_, _, _, _, _, rfl⟩

/-- An evaluation or a truncation that goes on: what of the state it may write (R115, R129). -/
theorem State.goOn_eq (s : State) :
    ∃ exc marking lim staged, s.goOn = { s with
      exc := exc, marking := marking
      store := { s.store with installedLim := lim, stagedLim := staged } } := by
  unfold State.goOn
  split
  · exact ⟨_, _, _, _, rfl⟩
  · exact ⟨_, _, _, _, rfl⟩
  · exact s.truncateFrom_eq _ _ _

/-- Telling a writer: what of the state it may write (R163). -/
theorem State.tellWriter_eq (s : State) (w : Writer) :
    ∃ geo out exc marking run lim staged, s.tellWriter w = { s with
      geo := geo, base := { s.base with out := out }, exc := exc, marking := marking, run := run
      store := { s.store with installedLim := lim, stagedLim := staged } } := by
  cases w with
  | exceedance =>
    obtain ⟨_, _, _, _, h⟩ := State.goOn_eq { s with exc := s.exc.told }
    exact ⟨_, _, _, _, _, _, _, h⟩
  | geometry | marking | base | runControl => exact ⟨_, _, _, _, _, _, _, rfl⟩

theorem execRingAppend_mayBecome {s t : State} (h : execRingAppend s = .next t) :
    s.mayBecome t .ringAppend := by
  unfold execRingAppend at h
  split at h
  · cases h; exact ⟨_, _, _, _, _, _, _, _, _, rfl⟩
  · next w _ =>
    split at h <;> cases h
    · exact ⟨_, _, _, _, _, _, _, _, _, rfl⟩
    · next body _ =>
      obtain ⟨_, _, _, _, _, _, _, hs⟩ := State.tellWriter_eq { s with
        ring := s.ring.append w s.run.number body
        ports := s.ports.map (fun q => q.refillActive (s.ring.append w s.run.number body)) } w
      exact ⟨_, _, _, _, _, _, _, _, _, by unfold State.appendRecord; dsimp only; rw [hs]; rfl⟩

/-! ## Run operations -/

theorem execGeometryRunStart_mayBecome {s t : State} (h : execGeometryRunStart s = .next t) :
    s.mayBecome t .geometryRunStart := by
  unfold execGeometryRunStart at h
  split at h <;> cases h
  · exact ⟨s.geo.runStart, s.run.atStage _, rfl⟩
  · exact ⟨s.geo, s.run, rfl⟩

theorem execGeometryRunResume_mayBecome {s t : State} (h : execGeometryRunResume s = .next t) :
    s.mayBecome t .geometryRunResume := by
  unfold execGeometryRunResume at h
  split at h <;> cases h
  · exact ⟨s.geo.openSegment, s.run.atStage _, rfl⟩
  · exact ⟨s.geo, s.run, rfl⟩

theorem execExceedanceRunStart_mayBecome {s t : State} (h : execExceedanceRunStart s = .next t) :
    s.mayBecome t .exceedanceRunStart := by
  unfold execExceedanceRunStart at h
  split at h
  · cases h; exact ⟨s.exc, s.run, rfl⟩
  · next o _ =>
    split at h <;> cases h
    · exact ⟨s.exc.runStart o.startClass, s.run.atStage _, rfl⟩
    · exact ⟨s.exc, s.run, rfl⟩

theorem execMarkingRunStart_mayBecome {s t : State} (h : execMarkingRunStart s = .next t) :
    s.mayBecome t .markingRunStart := by
  unfold execMarkingRunStart at h
  split at h <;> cases h
  · exact ⟨s.marking.runStart, s.run.atStage _, rfl⟩
  · exact ⟨s.marking, s.run, rfl⟩

theorem execDistanceBaseRunStart_mayBecome {s t : State} (h : execDistanceBaseRunStart s = .next t) :
    s.mayBecome t .distanceBaseRunStart := by
  unfold execDistanceBaseRunStart at h
  split at h
  · cases h; exact ⟨s.base, s.run, rfl⟩
  · split at h <;> cases h
    · next position orientation _ _ _ => exact ⟨s.base.runStart position orientation, s.run.atStage _, rfl⟩
    · exact ⟨s.base, s.run, rfl⟩

theorem execGeometryRunPause_mayBecome {s t : State} (h : execGeometryRunPause s = .next t) :
    s.mayBecome t .geometryRunPause := by
  unfold execGeometryRunPause at h
  split at h <;> cases h
  · exact ⟨_, _, s.base, s.run.atStage _, rfl⟩
  · exact ⟨_, _, s.base, s.run, rfl⟩

theorem execDistanceBaseRunEnd_mayBecome {s t : State} (h : execDistanceBaseRunEnd s = .next t) :
    s.mayBecome t .distanceBaseRunEnd := by
  unfold execDistanceBaseRunEnd at h
  split at h <;> cases h
  · exact ⟨_, _, { s.base with running := false, queue := [] }, s.run.atStage _, rfl⟩
  · exact ⟨_, _, s.base, s.run, rfl⟩

theorem execFlushFinished_mayBecome {s t : State} (h : execFlushFinished s = .next t) :
    s.mayBecome t .flushFinished := by
  unfold execFlushFinished at h
  split at h
  · cases h; exact ⟨_, _, s.run, rfl⟩
  · split at h
    · split at h <;> cases h
      · exact ⟨_, _, s.run.atStage _, rfl⟩
      · exact ⟨_, _, s.run, rfl⟩
    · cases h; exact ⟨_, _, s.run, rfl⟩

theorem execTruncationFinished_mayBecome {s t : State} (h : execTruncationFinished s = .next t) :
    s.mayBecome t .truncationFinished := by
  have same : s.mayBecome s .truncationFinished := ⟨_, _, _, _, _, _, rfl⟩
  unfold execTruncationFinished at h
  split at h
  · split at h
    · split at h
      · cases h; exact ⟨_, _, _, _, _, _, rfl⟩
      · split at h <;> cases h
        · exact ⟨_, _, _, _, _, _, rfl⟩
        · exact same
      · cases h; exact same
      · cases h; exact same
    · cases h; exact same
  · cases h; exact same

theorem execRunOperationComplete_mayBecome {s t : State} (h : execRunOperationComplete s = .next t) :
    s.mayBecome t .runOperationComplete := by
  unfold execRunOperationComplete at h
  split at h
  · cases h; exact ⟨_, _, _, s.run, rfl⟩
  · next o _ =>
    split at h <;> cases h
    · unfold State.completeOperation State.settleRun
      dsimp only
      split
      · obtain ⟨lim, staged, hst⟩ := s.store.takeUpLimits_eq
        rw [hst]
        exact ⟨lim, staged, _, { s.run with state := .idle, closing := false, summary := emptySummary, op := none }, rfl⟩
      · exact ⟨_, _, _, { s.run with op := none }, rfl⟩
      · exact ⟨_, _, _, { s.run with op := none }, rfl⟩
      · exact ⟨_, _, _, { s.run with op := none }, rfl⟩
    · exact ⟨_, _, _, s.run, rfl⟩

/-! ## Requests -/

theorem State.serve_ports {s t : State} {p : Port} {code n : Nat} {f : Request → State}
    (h : Host.Outcome.next (s.serve p code n f) = (.next t : Host.Outcome State Fault Refusal))
    (hf : ∀ r, ∃ ports, f r = { s with ports := ports }) : ∃ ports, t = { s with ports := ports } :=
  State.serve_next (P := fun t => ∃ ports, t = { s with ports := ports }) h ⟨_, rfl⟩ (fun _ => ⟨_, rfl⟩)
    (fun r _ _ => hf r)

theorem execUnknownRequest_mayBecome {p : Port} {s t : State} (h : execUnknownRequest p s = .next t) :
    ∃ ports, t = { s with ports := ports } := by
  unfold execUnknownRequest at h
  split at h
  · cases h; exact ⟨_, rfl⟩
  · split at h
    · cases h; exact ⟨_, rfl⟩
    · split at h <;> cases h <;> exact ⟨_, rfl⟩

theorem execSetPortOptions_mayBecome {p : Port} {s t : State} (h : execSetPortOptions p s = .next t) :
    ∃ ports, t = { s with ports := ports } :=
  State.serve_ports h fun r => by split <;> exact ⟨_, rfl⟩

theorem execReadSettings_mayBecome {p : Port} {s t : State} (h : execReadSettings p s = .next t) :
    ∃ ports, t = { s with ports := ports } :=
  State.serve_ports h fun r => by split <;> exact ⟨_, rfl⟩

theorem execAwaitChange_mayBecome {p : Port} {s t : State} (h : execAwaitChange p s = .next t) :
    ∃ ports, t = { s with ports := ports } :=
  State.serve_ports h fun r => by
    split
    · exact ⟨_, rfl⟩
    · dsimp only
      split_ifs <;> exact ⟨_, rfl⟩

theorem execStreamStart_mayBecome {p : Port} {s t : State} (h : execStreamStart p s = .next t) :
    ∃ ports, t = { s with ports := ports } :=
  State.serve_ports h fun r => by
    dsimp only
    split_ifs
    · exact ⟨_, rfl⟩
    · exact ⟨_, rfl⟩
    · split
      · exact ⟨_, rfl⟩
      · split <;> exact ⟨_, rfl⟩

theorem execStreamPause_mayBecome {p : Port} {s t : State} (h : execStreamPause p s = .next t) :
    ∃ ports, t = { s with ports := ports } :=
  State.serve_ports h fun r => by split <;> exact ⟨_, rfl⟩

theorem execStreamResume_mayBecome {p : Port} {s t : State} (h : execStreamResume p s = .next t) :
    ∃ ports, t = { s with ports := ports } :=
  State.serve_ports h fun r => by split <;> exact ⟨_, rfl⟩

theorem execStreamStop_mayBecome {p : Port} {s t : State} (h : execStreamStop p s = .next t) :
    ∃ ports, t = { s with ports := ports } :=
  State.serve_ports h fun r => by split <;> exact ⟨_, rfl⟩

theorem execReadRecords_mayBecome {p : Port} {s t : State} (h : execReadRecords p s = .next t) :
    ∃ ports, t = { s with ports := ports } :=
  State.serve_ports h fun r => by dsimp only; split_ifs <;> exact ⟨_, rfl⟩

theorem execReadLaneHealth_mayBecome {p : Port} {s t : State} (h : execReadLaneHealth p s = .next t) :
    ∃ ports, t = { s with ports := ports } :=
  State.serve_ports h fun r => by split <;> exact ⟨_, rfl⟩

theorem execReadLaneSample_mayBecome {p : Port} {s t : State} (h : execReadLaneSample p s = .next t) :
    ∃ ports, t = { s with ports := ports } :=
  State.serve_ports h fun r => by
    split
    · split <;> exact ⟨_, rfl⟩
    · exact ⟨_, rfl⟩

theorem execClearLaneFlags_mayBecome {p : Port} {s t : State} (h : execClearLaneFlags p s = .next t) :
    s.mayBecome t (.clearLaneFlags p) :=
  State.serve_next (P := (s.mayBecome · (.clearLaneFlags p))) h ⟨_, _, rfl⟩ (fun _ => ⟨_, _, rfl⟩)
    fun r _ _ => by dsimp only; split <;> exact ⟨_, _, rfl⟩

theorem execClassChange_mayBecome {p : Port} {s t : State} (h : execClassChange p s = .next t) :
    s.mayBecome t (.classChange p) :=
  State.serve_next (P := (s.mayBecome · (.classChange p))) h ⟨_, _, rfl⟩ (fun _ => ⟨_, _, rfl⟩)
    fun r _ _ => by
      dsimp only
      split
      · exact ⟨_, _, rfl⟩
      · split
        · exact ⟨_, _, rfl⟩
        · split
          · exact ⟨_, _, rfl⟩
          · split <;> exact ⟨_, _, rfl⟩

/-- The decision of a mark request writes the queue and the counts alone (R137). -/
theorem MarkingUnit.decideMark_eq (u : MarkingUnit) (mk : MarkingImage) (t : Int) (p : Nat)
    (src : MarkSource) :
    ∃ queue counts, (u.decideMark mk t p src).1 = { u with queue := queue, counts := counts } := by
  unfold MarkingUnit.decideMark
  split_ifs <;> exact ⟨_, _, rfl⟩

theorem execManualMark_mayBecome {p : Port} {s t : State} (h : execManualMark p s = .next t) :
    s.mayBecome t (.manualMark p) :=
  State.serve_next (P := (s.mayBecome · (.manualMark p))) h ⟨_, _, _, rfl⟩ (fun _ => ⟨_, _, _, rfl⟩)
    fun r _ _ => by
      dsimp only
      split_ifs
      iterate 6 exact ⟨_, _, _, rfl⟩
      obtain ⟨_, _, hu⟩ := s.marking.decideMark_eq s.store.committed.marking
        (markTarget s.store.committed.sampling s.store.committed.marking (r.field 0 4)) (r.field 0 4)
        (.manual p)
      exact ⟨_, _, _, by rw [hu]; rfl⟩

theorem execPositionFix_mayBecome {p : Port} {s t : State} (h : execPositionFix p s = .next t) :
    s.mayBecome t (.positionFix p) :=
  State.serve_next (P := (s.mayBecome · (.positionFix p))) h ⟨_, _, _, rfl⟩ (fun _ => ⟨_, _, _, rfl⟩)
    fun r _ _ => by
      dsimp only
      split
      · exact ⟨_, _, _, rfl⟩
      · split
        · exact ⟨_, _, _, rfl⟩
        · split
          · exact ⟨_, _, _, rfl⟩
          · split_ifs <;> exact ⟨_, _, _, rfl⟩

theorem execRunStart_mayBecome {p : Port} {s t : State} (h : execRunStart p s = .next t) :
    s.mayBecome t (.runStart p) :=
  State.serve_next (P := (s.mayBecome · (.runStart p))) h ⟨_, _, _, rfl⟩ (fun _ => ⟨_, _, _, rfl⟩)
    fun r _ _ => by
      dsimp only
      split
      · exact ⟨_, _, _, rfl⟩
      · split <;> exact ⟨_, _, _, rfl⟩

theorem execRunResume_mayBecome {p : Port} {s t : State} (h : execRunResume p s = .next t) :
    s.mayBecome t (.runResume p) :=
  State.serve_next (P := (s.mayBecome · (.runResume p))) h ⟨_, _, _, rfl⟩ (fun _ => ⟨_, _, _, rfl⟩)
    fun r _ _ => by dsimp only; split <;> exact ⟨_, _, _, rfl⟩

theorem execRunPause_mayBecome {p : Port} {s t : State} (h : execRunPause p s = .next t) :
    s.mayBecome t (.runPause p) :=
  State.serve_next (P := (s.mayBecome · (.runPause p))) h ⟨_, s.run, rfl⟩ (fun _ => ⟨_, s.run, rfl⟩)
    fun r _ _ => by
      dsimp only
      split
      · exact ⟨_, s.run, rfl⟩
      · exact ⟨_, { s.run.begin p r _ _ with state := .paused }, rfl⟩

theorem execRunEnd_mayBecome {p : Port} {s t : State} (h : execRunEnd p s = .next t) :
    s.mayBecome t (.runEnd p) :=
  State.serve_next (P := (s.mayBecome · (.runEnd p))) h ⟨_, s.run, rfl⟩ (fun _ => ⟨_, s.run, rfl⟩)
    fun r _ _ => by
      dsimp only
      split
      · exact ⟨_, s.run, rfl⟩
      · exact ⟨_, { s.run.begin p r _ _ with closing := true }, rfl⟩

/-! ## Commit Settings -/

/-- The installation or the staging of a committed image: what of the state it may write (R180). -/
theorem State.handImage_eq (s : State) (sec : Section) (before : Images) :
    ∃ ports lanes resampler queue inbox changed cal calStaged lim limStaged, ∃ marking : MarkingUnit,
      s.handImage sec before = { s with
        ports := ports, lanes := lanes, resampler := resampler
        base := { s.base with queue := queue }, geo := { s.geo with inbox := inbox }
        tach := { s.tach with rateChanged := changed }
        store := { s.store with installedCal := cal, stagedCal := calStaged
                                installedLim := lim, stagedLim := limStaged }
        marking := { marking with out := s.marking.out } } := by
  have same : ∃ ports lanes resampler queue inbox changed cal calStaged lim limStaged,
      ∃ marking : MarkingUnit, s = { s with
        ports := ports, lanes := lanes, resampler := resampler
        base := { s.base with queue := queue }, geo := { s.geo with inbox := inbox }
        tach := { s.tach with rateChanged := changed }
        store := { s.store with installedCal := cal, stagedCal := calStaged
                                installedLim := lim, stagedLim := limStaged }
        marking := { marking with out := s.marking.out } } :=
    ⟨_, _, _, _, _, _, _, _, _, _, s.marking, rfl⟩
  unfold State.handImage
  split
  · exact same
  · exact same
  · split
    · exact ⟨_, _, _, _, _, _, _, _, _, _, s.marking, rfl⟩
    · obtain ⟨_, _, _, _, _, _, _, h⟩ := ((State.SetFrame.ofInstall s s.store.committed.calibration).trans
        (State.SetFrame.ofFormedAll _ _)).eq
      exact ⟨_, _, _, _, _, _, _, _, _, _, s.marking, h⟩
  · split
    · exact same
    · exact ⟨_, _, _, _, _, _, _, _, _, _, s.marking, rfl⟩
  · split <;> exact ⟨_, _, _, _, _, _, _, _, _, _, s.marking, rfl⟩
  · split
    · exact ⟨_, _, _, _, _, _, _, _, _, _, s.marking.discardAll, rfl⟩
    · exact same

/-- Steps 1 to 4 of R180: what of the state they may write. -/
theorem State.commitImage_eq (s : State) (sec : Section) (v : List Int) :
    ∃ ports store lanes resampler changed queue inbox, ∃ marking : MarkingUnit,
      s.commitImage sec v = { s with
        ports := ports, store := store, lanes := lanes, resampler := resampler
        marking := { marking with out := s.marking.out }
        tach := { s.tach with rateChanged := changed }
        base := { s.base with queue := queue }, geo := { s.geo with inbox := inbox } } := by
  obtain ⟨_, _, _, _, _, _, _, _, _, _, m, hs⟩ := State.handImage_eq { s with
    store := s.store.commit sec v, ports := s.ports.map (fun q => q.dropReservation sec) } sec
    s.store.committed
  unfold State.commitImage
  dsimp only at hs ⊢
  rw [hs]
  exact ⟨_, _, _, _, _, _, _, m, rfl⟩

/-- The outcomes of Commit Settings: nothing to dispatch; an answer that changes nothing else; or the commit
of an image that passes every check (R179, R180). -/
theorem execCommitSettings_cases {p : Port} {s t : State} (h : execCommitSettings p s = .next t) :
    t = s ∨ (∃ r c fields, t = s.answer p r c fields)
      ∨ ∃ r sec v, s.commitRefusal p sec v = none ∧ v = decodeSlots (sectionLayout sec) (r.body.drop 1)
        ∧ t = (s.commitImage sec v).answerOk p r ((s.commitImage sec v).store.generationFields sec) := by
  unfold execCommitSettings at h
  split at h
  · exact .inl (Host.Outcome.next.inj h).symm
  · next r _ =>
    split at h
    · exact .inr (.inl ⟨_, _, _, (Host.Outcome.next.inj h).symm⟩)
    · split at h
      · exact .inr (.inl ⟨_, _, _, (Host.Outcome.next.inj h).symm⟩)
      · next sec _ =>
        split at h
        · replace h := Host.Outcome.next.inj h
          unfold State.commitSection at h
          dsimp only at h
          split at h
          · exact .inr (.inl ⟨_, _, _, h.symm⟩)
          · next hnone => exact .inr (.inr ⟨r, sec, _, hnone, rfl, h.symm⟩)
        · exact .inr (.inl ⟨_, _, _, (Host.Outcome.next.inj h).symm⟩)

theorem execCommitSettings_mayBecome {p : Port} {s t : State} (h : execCommitSettings p s = .next t) :
    s.mayBecome t (.commitSettings p) := by
  obtain rfl | ⟨r, c, fields, rfl⟩ | ⟨r, sec, v, -, -, rfl⟩ := execCommitSettings_cases h
  · exact ⟨_, _, _, _, _, _, _, t.marking, rfl⟩
  · exact ⟨_, _, _, _, _, _, _, s.marking, rfl⟩
  · obtain ⟨_, _, _, _, _, _, _, m, hs⟩ := s.commitImage_eq sec v
    rw [hs]
    exact ⟨_, _, _, _, _, _, _, m, rfl⟩

/-! ## Resets and every command -/

/-- What a command answers is the part started again, or differs in what the command may write alone. -/
theorem exec_restarts_or_mayBecome {c : Instr} {s t : State} (h : exec c s = .next t) :
    (mayRestart c = true ∧ s.restartsTo t) ∨ s.mayBecome t c := by
  cases c with
  | resetLine => exact .inl ⟨rfl, .inl (Host.Outcome.next.inj h).symm⟩
  | resetPart p =>
    refine State.serve_next (P := fun t => (_ ∧ s.restartsTo t) ∨ s.mayBecome t (.resetPart p)) h
      (.inr ⟨_, _, rfl⟩) (fun _ => .inr ⟨_, _, rfl⟩) fun r _ _ => ?_
    split
    · unfold State.acceptReset
      split
      · exact .inr ⟨_, _, rfl⟩
      · exact .inl ⟨rfl, .inr ⟨_, rfl⟩⟩
    · exact .inr ⟨_, _, rfl⟩
  | lossOfSignal p =>
    change execLossOfSignal p s = _ at h
    unfold execLossOfSignal at h
    split at h
    · cases h; exact .inr ⟨_, rfl⟩
    · dsimp only at h
      split at h
      · exact .inl ⟨rfl, .inr ⟨_, (Host.Outcome.next.inj h).symm⟩⟩
      · cases h; exact .inr ⟨_, rfl⟩
  | transmitFrameEnd p =>
    change execTransmitFrameEnd p s = _ at h
    unfold execTransmitFrameEnd at h
    split at h
    · cases h; exact .inr ⟨_, rfl⟩
    · split at h
      · split at h
        · exact .inl ⟨rfl, .inr ⟨_, (Host.Outcome.next.inj h).symm⟩⟩
        · cases h; exact .inr ⟨_, rfl⟩
      · cases h; exact .inr ⟨_, rfl⟩
  | pulseCandidate x phase2 => cases h; exact .inr ⟨_, rfl⟩
  | glitch x => cases h; exact .inr ⟨_, rfl⟩
  | distanceStrobeEnd l => cases h; exact .inr ⟨_, rfl⟩
  | linkFrame p bytes => cases h; exact .inr ⟨_, rfl⟩
  | identify p => exact .inr (State.serve_ports h fun _ => ⟨_, rfl⟩)
  | readStatus p => exact .inr (State.serve_ports h fun _ => ⟨_, rfl⟩)
  | pulseAccept x => exact .inr (execPulseAccept_mayBecome h)
  | sampleStrobe => exact .inr (execSampleStrobe_mayBecome h)
  | distanceBaseStrobe => exact .inr (execDistanceBaseStrobe_mayBecome h)
  | markerPulseEnd => exact .inr (execMarkerPulseEnd_mayBecome h)
  | laneFrame l bytes => exact .inr (execLaneFrame_mayBecome h)
  | spatialSampleTake => exact .inr (execSpatialSampleTake_mayBecome h)
  | ringAppend => exact .inr (execRingAppend_mayBecome h)
  | pointEvaluation => exact .inr (execPointEvaluation_mayBecome h)
  | truncation => exact .inr (execTruncation_mayBecome h)
  | unknownRequest p => exact .inr (execUnknownRequest_mayBecome h)
  | setPortOptions p => exact .inr (execSetPortOptions_mayBecome h)
  | readSettings p => exact .inr (execReadSettings_mayBecome h)
  | commitSettings p => exact .inr (execCommitSettings_mayBecome h)
  | awaitChange p => exact .inr (execAwaitChange_mayBecome h)
  | runStart p => exact .inr (execRunStart_mayBecome h)
  | geometryRunStart => exact .inr (execGeometryRunStart_mayBecome h)
  | exceedanceRunStart => exact .inr (execExceedanceRunStart_mayBecome h)
  | markingRunStart => exact .inr (execMarkingRunStart_mayBecome h)
  | distanceBaseRunStart => exact .inr (execDistanceBaseRunStart_mayBecome h)
  | runPause p => exact .inr (execRunPause_mayBecome h)
  | geometryRunPause => exact .inr (execGeometryRunPause_mayBecome h)
  | flushFinished => exact .inr (execFlushFinished_mayBecome h)
  | truncationFinished => exact .inr (execTruncationFinished_mayBecome h)
  | runResume p => exact .inr (execRunResume_mayBecome h)
  | geometryRunResume => exact .inr (execGeometryRunResume_mayBecome h)
  | runEnd p => exact .inr (execRunEnd_mayBecome h)
  | distanceBaseRunEnd => exact .inr (execDistanceBaseRunEnd_mayBecome h)
  | runOperationComplete => exact .inr (execRunOperationComplete_mayBecome h)
  | positionFix p => exact .inr (execPositionFix_mayBecome h)
  | classChange p => exact .inr (execClassChange_mayBecome h)
  | manualMark p => exact .inr (execManualMark_mayBecome h)
  | streamStart p => exact .inr (execStreamStart_mayBecome h)
  | streamPause p => exact .inr (execStreamPause_mayBecome h)
  | streamResume p => exact .inr (execStreamResume_mayBecome h)
  | streamStop p => exact .inr (execStreamStop_mayBecome h)
  | readRecords p => exact .inr (execReadRecords_mayBecome h)
  | readLaneHealth p => exact .inr (execReadLaneHealth_mayBecome h)
  | clearLaneFlags p => exact .inr (execClearLaneFlags_mayBecome h)
  | readLaneSample p => exact .inr (execReadLaneSample_mayBecome h)

/-- The part after a restart differs from the cleared part in what the taking of strobe 0 writes alone (R42,
R60). -/
theorem restarted_eq (pending : List Instr) (store : Store) (links : PerPort LinkState) :
    ∃ time tach strobe lanes resampler ports cal staged queue items inbox,
      restarted pending store links = { cleared pending store links with
        time := time, tach := tach, strobe := strobe, lanes := lanes, resampler := resampler, ports := ports
        store := { store with installedCal := cal, stagedCal := staged }
        base := { resetBase with queue := queue, inbox := items }
        geo := { resetGeometry with inbox := inbox } } := by
  obtain ⟨_, _, _, _, _, _, _, h⟩ := (State.SetFrame.ofIssue (cleared pending store links) 0 0).eq
  exact ⟨_, _, _, _, _, _, _, _, _, _, _, h⟩

end Sys2Proof.Machine
end

section
/-! PROOFS. Tachometers (01): what pulses and strobes leave of a tachometer, and the law of R11. -/

namespace Sys2Proof.Machine

/-! ## From a law of `exec` to a law of `step` -/

/-- A law that does not speak about the queue of commands, and that every command keeps, is kept by every
step. -/
theorem step_keeps {P : State → Prop} (hqueue : ∀ s q, P s → P { s with pending := q })
    (hexec : ∀ c s t, P s → exec c s = .next t → P t) {s t : State} (hs : P s) (h : step s = .next t) :
    P t := by
  unfold step at h
  split at h
  · cases h; exact hs
  · exact hexec _ _ _ (hqueue _ _ hs) h

/-! ## Health and silence at a strobe (R10, R11, R13) -/

/-- The evaluation at a strobe writes the silent distance, the health and the recovery count alone. -/
theorem Tach.evaluate_eq (t : Tach) (o : OdometryImage) (other : Health) (d e : Int) :
    ∃ health recovery, t.evaluate o other d e
      = { t with silent := t.grownSilence other e, health := health, recovery := recovery } := by
  unfold Tach.evaluate
  dsimp only
  split
  · exact ⟨_, _, rfl⟩
  · split_ifs <;> exact ⟨_, _, rfl⟩
  · split_ifs <;> exact ⟨_, _, rfl⟩

@[simp] theorem Tach.evaluate_silent (t : Tach) (o : OdometryImage) (other : Health) (d e : Int) :
    (t.evaluate o other d e).silent = t.grownSilence other e := by
  obtain ⟨_, _, h⟩ := t.evaluate_eq o other d e
  rw [h]

/-- A HEALTHY tachometer stays HEALTHY but where it meets the threshold beside a HEALTHY one (R10). -/
theorem Tach.evaluate_healthy {t : Tach} {o : OdometryImage} {other : Health} {d e : Int}
    (h : t.health = .healthy) (hk : other = .healthy → t.grownSilence other e < o.failDistance * 1000) :
    (t.evaluate o other d e).health = .healthy := by
  unfold Tach.evaluate
  dsimp only
  rw [h]
  dsimp only
  split_ifs with hm
  · exact absurd (hk hm.2) (by simpa using hm.1)
  · rfl

/-- Without a pulse since the last strobe there is no increment (R3). -/
theorem Tach.increment_of_not_seen {t : Tach} (hc : t.consistent) (h : t.seen = false) (o : OdometryImage) :
    t.increment o = 0 := by
  unfold Tach.increment
  rw [hc.1 h, sub_self]

/-- The silent distance grows only without a pulse, and by the other tachometer's increment (R10). -/
theorem Tach.grownSilence_eq_zero {t : Tach} {other : Health} {e : Int} (h : t.silent = 0)
    (he : t.seen = false → e = 0) : t.grownSilence other e = 0 := by
  unfold Tach.grownSilence
  split_ifs with hg
  · rw [h, he (by simpa using hg.2.1)]; rfl
  · exact h

/-- After a strobe at most one silent distance is not 0: of two tachometers only one without a pulse can
grow, and by an increment that a tachometer without a pulse does not have (R11). -/
theorem grownSilence_one_zero {a b : Tach} (ha : a.consistent) (hb : b.consistent)
    (h : a.silent = 0 ∨ b.silent = 0) (o : OdometryImage) (hA hB : Health) :
    a.grownSilence hB (b.increment o) = 0 ∨ b.grownSilence hA (a.increment o) = 0 := by
  have still {x : Tach} (hx : x.consistent) (h0 : x.silent ≠ 0) : x.seen = false := by
    by_contra hseen
    exact h0 (hx.2 (by simpa using hseen))
  by_cases hb0 : b.silent = 0
  · by_cases hab : a.seen = false
    · exact .inr (Tach.grownSilence_eq_zero hb0 fun _ => Tach.increment_of_not_seen ha hab o)
    · exact .inl (Tach.grownSilence_eq_zero (by
        by_contra ha0
        exact hab (still ha ha0)) fun h => absurd h hab)
  · exact .inl (Tach.grownSilence_eq_zero (h.resolve_right hb0)
      fun _ => Tach.increment_of_not_seen hb (still hb hb0) o)

/-! ## The law of R11 -/

/-- The law of R11 for two tachometers (`State.TachLaw` without the settings). -/
structure PerTach.Lawful (u : PerTach Tach) : Prop where
  a : u.a.consistent
  b : u.b.consistent
  silent : u.a.silent = 0 ∨ u.b.silent = 0
  health : u.a.health = .healthy ∨ u.b.health = .healthy

theorem State.tachLaw_iff (s : State) :
    s.TachLaw ↔ s.tach.units.Lawful ∧ 0 < s.store.committed.odometry.failDistance :=
  ⟨fun ⟨ha, hb, hs, hh, ho⟩ => ⟨⟨ha, hb, hs, hh⟩, ho⟩, fun ⟨⟨ha, hb, hs, hh⟩, ho⟩ => ⟨ha, hb, hs, hh, ho⟩⟩

/-- A tachometer replaced by one that is consistent, no more silent and no less healthy keeps the law. -/
theorem PerTach.Lawful.set {u : PerTach Tach} (h : u.Lawful) (x : TachId) {t : Tach} (hc : t.consistent)
    (hs : (u.get x).silent = 0 → t.silent = 0) (hh : (u.get x).health = .healthy → t.health = .healthy) :
    (u.set x t).Lawful := by
  obtain ⟨ha, hb, hsilent, hhealth⟩ := h
  cases x with
  | a => exact ⟨hc, hb, hsilent.imp_left hs, hhealth.imp_left hh⟩
  | b => exact ⟨ha, hc, hsilent.imp_right hs, hhealth.imp_right hh⟩

theorem PerTach.Lawful.consistent {u : PerTach Tach} (h : u.Lawful) (x : TachId) :
    (u.get x).consistent := by
  cases x with
  | a => exact h.a
  | b => exact h.b

/-- A rising edge and a glitch write nothing that the law speaks of (R1). -/
theorem PerTach.Lawful.risingEdge {u : PerTach Tach} (h : u.Lawful) (x : TachId) (w : Nat) (r l : Bool) :
    (u.set x ((u.get x).risingEdge w r l)).Lawful := by
  unfold Tach.risingEdge
  split <;> exact h.set x (h.consistent x) id id

theorem PerTach.Lawful.dropPulse {u : PerTach Tach} (h : u.Lawful) (x : TachId) :
    (u.set x (u.get x).dropPulse).Lawful := by
  unfold Tach.dropPulse
  split <;> exact h.set x (h.consistent x) id id

/-- An accepted pulse returns the silent distance to 0 and keeps a HEALTHY tachometer HEALTHY (R10, R12). -/
theorem PerTach.Lawful.acceptPulse {u : PerTach Tach} (h : u.Lawful) (x : TachId) :
    (u.set x (u.get x).acceptPulse).Lawful := by
  unfold Tach.acceptPulse
  split
  · exact h.set x (h.consistent x) id id
  · refine h.set x ⟨fun h => absurd h (by simp), fun _ => rfl⟩ (fun _ => rfl) fun hh => ?_
    simp [hh]

/-- A strobe keeps the law: only the one silent tachometer can leave HEALTHY, and only beside a HEALTHY one
(R11). -/
theorem PerTach.Lawful.takeStrobe {u : TachUnit} (h : u.units.Lawful) {o : OdometryImage}
    (ho : 0 < o.failDistance) (period : Nat) (k : Word32) : (u.takeStrobe o period k).1.units.Lawful := by
  obtain ⟨ha, hb, hs, hh⟩ := h
  have hzero := grownSilence_one_zero ha hb hs o u.units.a.health u.units.b.health
  have latched (t : Tach) : t.latch.consistent := ⟨fun _ => rfl, fun h => absurd h (by simp [Tach.latch])⟩
  refine ⟨latched _, latched _, ?_, ?_⟩
  · simpa [TachUnit.takeStrobe, Tach.latch] using hzero
  · simp only [TachUnit.takeStrobe, Tach.latch]
    by_cases hboth : u.units.a.health = .healthy ∧ u.units.b.health = .healthy
    · exact hzero.imp (fun h => Tach.evaluate_healthy hboth.1 fun _ => by omega)
        (fun h => Tach.evaluate_healthy hboth.2 fun _ => by omega)
    · exact hh.imp (fun h => Tach.evaluate_healthy h fun k => absurd ⟨h, k⟩ hboth)
        (fun h => Tach.evaluate_healthy h fun k => absurd ⟨k, h⟩ hboth)

/-! ## The fail distance stays positive -/

/-- With no failing test each value passes its own (R176). -/
theorem firstFailing_eq_none {k : Nat} {ts : List (Int → Bool)} {vs : List Int}
    (h : firstFailing k ts vs = none) {i : Nat} {t : Int → Bool} {v : Int} (ht : ts[i]? = some t)
    (hv : vs[i]? = some v) : t v = true := by
  induction ts generalizing k vs i with
  | nil => simp at ht
  | cons t' ts ih =>
    cases vs with
    | nil => simp at hv
    | cons v' vs =>
      unfold firstFailing at h
      split at h
      · next hpass =>
        cases i with
        | zero =>
          obtain rfl : t' = t := by simpa using ht
          obtain rfl : v' = v := by simpa using hv
          exact hpass
        | succ i => exact ih h (by simpa using ht) (by simpa using hv)
      · cases h

@[simp] theorem decodeSlots_length (ts : List Slot) (bytes : List Byte) :
    (decodeSlots ts bytes).length = ts.length := by
  induction ts generalizing bytes with
  | nil => rfl
  | cons t ts ih => simp [decodeSlots, ih]

/-- An image that is committed has passed the tests of its fields (R179). -/
theorem State.firstBadField_of_commitRefusal {s : State} {p : Port} {sec : Section} {v : List Int}
    (h : s.commitRefusal p sec v = none) : firstBadField sec v = none := by
  unfold State.commitRefusal at h
  dsimp only at h
  iterate 4 rw [ite_eq_iff, or_iff_right (by simp)] at h; replace h := h.2
  split at h
  · cases h
  · assumption

/-- A committed ODOMETRY image has a positive fail distance (01, settings table). -/
theorem odometryOf_failDistance_pos {bytes : List Byte}
    (h : firstBadField .odometry (decodeSlots (sectionLayout .odometry) bytes) = none) :
    0 < (odometryOf (decodeSlots (sectionLayout .odometry) bytes)).failDistance := by
  generalize hv : decodeSlots (sectionLayout .odometry) bytes = v at *
  have hlen : v.length = 11 := by rw [← hv, decodeSlots_length]; rfl
  have h5 : v[5]? = some v[5] := List.getElem?_eq_getElem (by omega)
  have htest : inRange 500 20000 v[5] = true := firstFailing_eq_none (k := 0) h rfl h5
  simp only [inRange, Bool.and_eq_true, decide_eq_true_eq] at htest
  have hget : v.getD 5 0 = v[5] := by simp [List.getD, h5]
  simp only [odometryOf, hget]
  omega

/-- A commit changes the committed images by the replacement of the section's image alone (R180). -/
theorem State.commitImage_committed (s : State) (sec : Section) (v : List Int) :
    (s.commitImage sec v).store.committed = s.store.committed.replace sec v := by
  obtain ⟨_, _, _, _, _, _, _, _, _, _, m, hs⟩ := State.handImage_eq { s with
    store := s.store.commit sec v, ports := s.ports.map (fun q => q.dropReservation sec) } sec
    s.store.committed
  unfold State.commitImage
  dsimp only at hs ⊢
  rw [hs]
  rfl

theorem Images.replace_failDistance_pos {i : Images} (hi : 0 < i.odometry.failDistance) {sec : Section}
    {bytes : List Byte} (h : firstBadField sec (decodeSlots (sectionLayout sec) bytes) = none) :
    0 < (i.replace sec (decodeSlots (sectionLayout sec) bytes)).odometry.failDistance := by
  cases sec with
  | odometry => exact odometryOf_failDistance_pos h
  | access | calibration | sampling | limits | marking => exact hi

/-! ## Restarts -/

/-- The committed images of the part after a restart are those of the store it is started with. -/
theorem restarted_committed (pending : List Instr) (store : Store) (links : PerPort LinkState) :
    (restarted pending store links).store.committed = store.committed := by
  obtain ⟨_, _, _, _, _, _, _, _, _, _, _, h⟩ := restarted_eq pending store links
  rw [h]

theorem restarted_tach (pending : List Instr) (store : Store) (links : PerPort LinkState) :
    (restarted pending store links).tach
      = (resetTachUnit.takeStrobe store.committed.odometry
          (strobePeriod store.committed.sampling.rate) 0).1 := by
  exact (State.SetFrame.ofIssue (cleared pending store links) 0 0).tach

theorem restarted_tachLaw (pending : List Instr) {store : Store}
    (h : 0 < store.committed.odometry.failDistance) (links : PerPort LinkState) :
    (restarted pending store links).TachLaw := by
  rw [State.tachLaw_iff, restarted_committed, restarted_tach]
  have hreset : resetTachUnit.units.Lawful :=
    ⟨⟨fun _ => rfl, fun _ => rfl⟩, ⟨fun _ => rfl, fun _ => rfl⟩, .inl rfl, .inl rfl⟩
  exact ⟨hreset.takeStrobe h _ _, h⟩

/-! ## Every step -/

theorem exec_keeps_tachLaw {c : Instr} {s t : State} (hs : s.TachLaw) (h : exec c s = .next t) :
    t.TachLaw := by
  obtain ⟨hu, ho⟩ := s.tachLaw_iff.mp hs
  rcases exec_restarts_or_mayBecome h with ⟨-, rfl | ⟨links, rfl⟩⟩ | hm
  · exact restarted_tachLaw _ (by decide) _
  · exact restarted_tachLaw (store := s.store.afterResetPart) _ ho _
  · cases c with
    | resetLine => exact hm.elim
    | pulseCandidate x l => cases h; exact (State.tachLaw_iff _).mpr ⟨hu.risingEdge x _ _ l, ho⟩
    | glitch x => cases h; exact (State.tachLaw_iff _).mpr ⟨hu.dropPulse x, ho⟩
    | pulseAccept x =>
      cases h
      rw [State.tachLaw_iff, State.offerAll_tach, State.offerAll_store]
      exact ⟨hu.acceptPulse x, ho⟩
    | sampleStrobe =>
      cases h
      have hframe := State.SetFrame.ofIssue s (s.strobe.number + 1) (s.time + s.strobe.period)
      rw [State.tachLaw_iff, hframe.tach, hframe.committed]
      exact ⟨hu.takeStrobe ho s.strobe.period (s.strobe.number + 1), ho⟩
    | commitSettings p =>
      obtain ⟨_, _, _, _, _, _, _, _, ht⟩ := hm
      rw [State.tachLaw_iff]
      refine ⟨by rw [ht]; exact hu, ?_⟩
      obtain rfl | ⟨r, c, fields, rfl⟩ | ⟨r, sec, v, hpass, rfl, rfl⟩ := execCommitSettings_cases h
      · exact ho
      · exact ho
      · simp only [State.answerOk, State.answer_store, State.commitImage_committed]
        exact Images.replace_failDistance_pos ho (State.firstBadField_of_commitRefusal hpass)
    | _ =>
      repeat obtain ⟨_, hm⟩ := hm
      exact hs

/-- Settles O7: what each command writes of the tachometers keeps the law of R11, and Commit Settings keeps
the fail distance positive. -/
theorem atMostOneTachometerOutsideHealthy : Obligations.AtMostOneTachometerOutsideHealthy := by
  unfold Obligations.AtMostOneTachometerOutsideHealthy
  intro s t hs h
  exact step_keeps (P := State.TachLaw) (fun _ _ hs => hs) (fun _ _ _ hs h => exec_keeps_tachLaw hs h) hs h

end Sys2Proof.Machine
end

section
/-! PROOFS. Limits and exceedances (06, 07): what a tracker's act hands on, what acting in turn leaves, and
the laws of the class queue, the trackers and the turn. -/

namespace Sys2Proof.Machine

/-! ## What one tracker's act hands on (R124, R127) -/

/-- What one act of a tracker can do to the exceedance number and the records handed on: nothing, an URGENT
record, or the next number with one EXCEEDANCE record that carries it (R124, R127). -/
def Tally.grows (y y' : Tally) : Prop :=
  (y'.number = y.number ∧ (y'.out = y.out ∨ ∃ u, y'.out = y.out ++ [.urgent u]))
    ∨ (y'.number = y.number + 1
      ∧ ∃ r : ExceedanceRecord, r.number = y.number + 1 ∧ y'.out = y.out ++ [.exceedance r])

theorem Tally.grows_refl (y : Tally) : y.grows y := .inl ⟨rfl, .inl rfl⟩

theorem Tally.grows.length_le {y y' : Tally} (h : y.grows y') : y'.out.length ≤ y.out.length + 1 := by
  obtain ⟨-, h | ⟨u, h⟩⟩ | ⟨-, r, -, h⟩ := h <;> simp [h]

/-- A closing hands on at most one record, under the next number (R126, R127). -/
theorem closeExceedance_grows (l : LimitsImage) (sam : SamplingImage) (c : Nat) (e : Sense) (why : Closing)
    (g : Progress) (y : Tally) : y.grows (closeExceedance l sam c e why g y) := by
  obtain ⟨-, h⟩ | ⟨-, h⟩ := closeExceedance_cases l sam c e why g y
  · rw [h]; exact .inl ⟨rfl, .inl rfl⟩
  · rw [h]; exact .inr ⟨rfl, _, rfl, rfl⟩

/-- R124 hands on at most an URGENT record. -/
theorem applyUrgent_cases (x : Judging) (c : Nat) (e : Sense) (v : Int) (g : Progress) (y : Tally) :
    (g.level = 3 ∧ g.urgent = false ∧ applyUrgent x c e v g y
      = ({ g with urgent := true },
        { y with out := y.out ++ [urgentRecord c e x.record v]
                 counts := { y.counts with urgent := satInc 65535 y.counts.urgent } }))
    ∨ (¬ (g.level = 3 ∧ g.urgent = false) ∧ applyUrgent x c e v g y = (g, y)) := by
  unfold applyUrgent
  split
  · next h => exact .inl ⟨h.1, h.2, rfl⟩
  · next h => exact .inr ⟨h, rfl⟩

/-- R125 changes the mark outcome and the marking unit alone, by one decision of R137. -/
theorem applyMark_cases (x : Judging) (c : Nat) (e : Sense) (g : Progress) (y : Tally) :
    (x.marking.trigger ≤ g.level ∧ g.mark = none ∧ applyMark x c e g y
      = let answer := y.marking.decideMark x.marking (markTarget x.sampling x.marking x.record.point)
          x.record.point (.tracker c e)
        ({ g with mark := some answer.2 }, { y with marking := answer.1 }))
    ∨ (¬ (x.marking.trigger ≤ g.level ∧ g.mark = none) ∧ applyMark x c e g y = (g, y)) := by
  unfold applyMark
  split
  · next h => exact .inl ⟨h.1, h.2, rfl⟩
  · next h => exact .inr ⟨h, rfl⟩

theorem applyBoth_grows (x : Judging) (c : Nat) (e : Sense) (v : Int) (g : Progress) (y : Tally) :
    y.grows (applyBoth x c e v g y).2 := by
  have hmark (g' : Progress) (y' : Tally) :
      (applyMark x c e g' y').2.number = y'.number ∧ (applyMark x c e g' y').2.out = y'.out := by
    obtain ⟨-, -, h⟩ | ⟨-, h⟩ := applyMark_cases x c e g' y' <;> rw [h] <;> exact ⟨rfl, rfl⟩
  simp only [applyBoth, Tally.grows, hmark]
  obtain ⟨-, -, h⟩ | ⟨-, h⟩ := applyUrgent_cases x c e v g y
  · rw [h]; exact .inl ⟨rfl, .inr ⟨_, rfl⟩⟩
  · rw [h]; exact .inl ⟨rfl, .inl rfl⟩

/-- A tracker that is not CLEAR at the end of an act was judged EXCEEDING, or was OPEN before with the level
it has (R116, R117, R119 to R122); and an act hands on at most one record. -/
theorem judge_cases (x : Judging) (c : Nat) (e : Sense) (t : Tracker) (y : Tally) :
    (∃ v g, judge x c e t y = applyBoth x c e v g y ∧ (trackerOk t → trackerOk (some g)))
    ∨ (∃ g why, judge x c e t y = x.close c e why g y)
    ∨ ∃ k, judge x c e t y = (k, y) ∧ (trackerOk t → trackerOk k) := by
  cases t with
  | none =>
    simp only [judge, judgeClear]
    split
    · next n v hz hv =>
      exact .inl ⟨v, _, rfl, fun _ => zoneOf_exceeding hz⟩
    · exact .inr (.inr ⟨none, rfl, id⟩)
  | some g =>
    cases hz : zoneOf x.limits c x.cls e (x.record.value c) with
    | exceeding n =>
      refine .inl ⟨_, _, judge_open_of_exceeding hz g y, fun h => ?_⟩
      have hn := zoneOf_exceeding hz
      simp only [trackerOk, Progress.exceed_level] at h ⊢
      omega
    | band => exact .inr (.inr ⟨_, judge_open_of_band hz g y, id⟩)
    | inside =>
      rw [judge_open_of_inside hz g y]
      split
      · exact .inr (.inl ⟨_, _, rfl⟩)
      · exact .inr (.inr ⟨_, rfl, id⟩)
    | absent =>
      rw [judge_open_of_absent hz g y]
      split
      · exact .inr (.inl ⟨_, _, rfl⟩)
      · exact .inr (.inr ⟨_, rfl, id⟩)
    | noLimit => exact .inr (.inl ⟨g, .limitsLost, by simp [judge, judgeOpen, hz]⟩)

theorem judge_grows (x : Judging) (c : Nat) (e : Sense) (t : Tracker) (y : Tally) :
    y.grows (judge x c e t y).2 := by
  obtain ⟨v, g, h, -⟩ | ⟨g, why, h⟩ | ⟨k, h, -⟩ := judge_cases x c e t y
  · rw [h]; exact applyBoth_grows ..
  · rw [h]; exact closeExceedance_grows ..
  · rw [h]; exact y.grows_refl

theorem judge_trackerOk {x : Judging} {c : Nat} {e : Sense} {t : Tracker} {y : Tally} (ht : trackerOk t) :
    trackerOk (judge x c e t y).1 := by
  obtain ⟨v, g, h, hg⟩ | ⟨g, why, h⟩ | ⟨k, h, hk⟩ := judge_cases x c e t y
  · obtain ⟨g', h1, hlevel⟩ := applyBoth_open x c e v g y
    rw [h, h1]
    have := hg ht
    simpa only [trackerOk, hlevel] using this
  · rw [h, Judging.close_clear]; trivial
  · rw [h]; exact hk ht

theorem truncateTracker_grows (l : LimitsImage) (sam : SamplingImage) (why : Closing) (c : Nat) (e : Sense)
    (t : Tracker) (y : Tally) : y.grows (truncateTracker l sam why c e t y).2 := by
  cases t with
  | none => exact y.grows_refl
  | some g => exact closeExceedance_grows ..

/-! ## What acting in turn leaves (R115, R127, R129) -/

section
variable {act : Nat → Tracker → Tally → Tracker × Tally}

/-- What each act keeps, acting in turn keeps; each acts with no record waiting. -/
theorem actInTurn_tally {Q : Tally → Prop} (hact : ∀ i t y, y.out = [] → Q y → Q (act i t y).2) (i : Nat)
    (ts : List Tracker) {y : Tally} (hy : Q y) : Q (actInTurn act i ts y).2.1 := by
  induction ts generalizing i y with
  | nil => exact hy
  | cons t ts ih =>
    unfold actInTurn
    split
    · next h => exact ih (i + 1) (hact i t y (by simpa using h) hy)
    · exact hy

/-- What each act makes of a tracker, every tracker has that acts in turn, where the others have it. -/
theorem actInTurn_trackers {R : Tracker → Prop} (hact : ∀ i t y, R t → R (act i t y).1) (i : Nat)
    {ts : List Tracker} (y : Tally) (hts : ∀ t ∈ ts, R t) : ∀ t ∈ (actInTurn act i ts y).1, R t := by
  induction ts generalizing i y with
  | nil => simp [actInTurn]
  | cons t ts ih =>
    obtain ⟨ht, hts'⟩ := List.forall_mem_cons.mp hts
    unfold actInTurn
    split
    · exact List.forall_mem_cons.mpr ⟨hact i t y ht, ih (i + 1) _ hts'⟩
    · exact hts

/-- Trackers acting in turn hand on at most one record between them (R115, R127). -/
theorem actInTurn_grows (hact : ∀ i t (y : Tally), y.grows (act i t y).2) (i : Nat) (ts : List Tracker) (y : Tally) :
    y.grows (actInTurn act i ts y).2.1 := by
  refine actInTurn_tally (Q := y.grows) (fun i t y' hnone hy => ?_) i ts y.grows_refl
  have hsame : y'.number = y.number ∧ y'.out = y.out := by
    obtain ⟨hn, h | ⟨u, h⟩⟩ | ⟨-, r, -, h⟩ := hy
    · exact ⟨hn, h⟩
    · simp [hnone] at h
    · simp [hnone] at h
  have := hact i t y'
  simpa only [Tally.grows, hsame] using this

/-- With a record waiting no tracker acts (R115). -/
theorem actInTurn_of_out {y : Tally} (h : y.out ≠ []) (i : Nat) (ts : List Tracker) :
    actInTurn act i ts y = (ts, y, i) := by
  cases ts with
  | nil => rfl
  | cons t ts => simp [actInTurn, h]

end

/-! ## The laws of the exceedance unit (R106, R113 to R117) -/

/-- The law of R113 and R117 for the trackers (`State.TrackerLaw`). -/
def ExceedanceUnit.TrackersLawful (u : ExceedanceUnit) : Prop :=
  u.trackers.length = 16 ∧ ∀ t ∈ u.trackers, trackerOk t

/-- The order of an evaluation or a truncation in progress (`State.TurnLaw`). -/
def ExceedanceUnit.TurnLawful (u : ExceedanceUnit) : Prop :=
  u.trackers.length = 16 ∧ u.out.length ≤ 1 ∧ ∀ x, u.turn = some x → u.out ≠ [] ∧ x.next < 16

/-- The law of R106 for the class queue (`State.ClassLaw`). -/
def ExceedanceUnit.ClassLawful (u : ExceedanceUnit) : Prop :=
  u.classQueue.length ≤ Config.classCapacity
    ∧ u.classQueue.Pairwise (fun x y => x.effective < y.effective)

section
variable {s : State} {act : Nat → Tracker → Tally → Tracker × Tally} {next : Nat} {rest : Nat → Turn}

theorem State.actFrom_trackersLawful (hact : ∀ i t y, trackerOk t → trackerOk (act i t y).1)
    (hs : s.exc.TrackersLawful) : (s.actFrom act next rest).exc.TrackersLawful := by
  refine ⟨by rw [State.actFrom_length]; exact hs.1, fun t ht => ?_⟩
  rcases List.mem_append.mp ht with ht | ht
  · exact hs.2 t (List.mem_of_mem_take ht)
  · exact actInTurn_trackers hact next _ (fun t ht => hs.2 t (List.mem_of_mem_drop ht)) t ht

/-- Acting in turn from no more than one record waiting keeps the order of the turn: it stops behind the
first record, or with every tracker handled. -/
theorem State.actFrom_turnLawful (hact : ∀ i t (y : Tally), y.grows (act i t y).2) (hrest : ∀ n, (rest n).next = n)
    (hlen : s.exc.trackers.length = 16) (hout : s.exc.out.length ≤ 1) (hnext : next ≤ 16) :
    (s.actFrom act next rest).exc.TurnLawful := by
  obtain ⟨n, y, -, hn, -, hyn, -, -, hmore, hdone⟩ := s.actFrom_actsTo act next rest (hlen ▸ hnext)
  refine ⟨by rw [State.actFrom_length]; exact hlen, ?_, fun x hx => ?_⟩
  · by_cases hne : s.exc.out = []
    · have := (actInTurn_grows hact next (s.exc.trackers.drop next) (s.exc.tally s.marking)).length_le
      simpa [State.actFrom, ExceedanceUnit.settle, ExceedanceUnit.tally, hne] using this
    · simpa [State.actFrom, ExceedanceUnit.settle, ExceedanceUnit.tally, actInTurn_of_out, hne] using hout
  · rcases Nat.lt_or_ge n s.exc.trackers.length with hlt | hge
    · obtain ⟨hne, hturn⟩ := hmore hlt
      rw [hturn, Option.some.injEq] at hx
      rw [← hx, hrest]
      exact ⟨hne, by omega⟩
    · rw [hdone (by omega)] at hx
      cases hx

end

/-- What a truncation that goes on leaves of the exceedance unit: what its trackers' acts leave, with the
report set where it is due (R129). -/
theorem State.truncateFrom_exc (s : State) (cause : TruncationCause) (closed next : Nat) :
    ∃ truncation, (s.truncateFrom cause closed next).exc =
      { (s.actFrom (fun i => truncateTracker s.store.installedLim s.store.committed.sampling cause.closing
          (trackerChannel i) (trackerSense i)) next (.truncation cause closed)).exc with
        truncation := truncation } := by
  unfold State.truncateFrom
  dsimp only
  split <;> exact ⟨_, rfl⟩

/-! ## What a command can make of the exceedance unit -/

/-- The exceedance units that a command can leave in a state `s`. -/
inductive State.ExcStep (s : State) : ExceedanceUnit → Prop where
  | reset : s.ExcStep resetExceedance
  | runStart (cls : Nat) : s.ExcStep (s.exc.runStart cls)
  /-- The lists that other units hand to it, or read from it, and nothing else. -/
  | handed (list : List EvalItem) (report : Option TruncationReport) :
      s.ExcStep { s.exc with evalList := list, truncation := report }
  /-- A Class Change that is accepted (R107). -/
  | queued (e : ClassEntry) (h : (∃ x ∈ s.exc.classQueue, x.effective = e.effective)
        ∨ s.exc.classQueue.length < Config.classCapacity) :
      s.ExcStep { s.exc with classQueue := insertClass e s.exc.classQueue }
  | evaluated (r : PointRecord) (rest : List EvalItem) (h : s.exc.ready = true) :
      s.ExcStep (s.evaluate r rest).exc
  | truncated (cause : TruncationCause) (rest : List EvalItem) (h : s.exc.ready = true) :
      s.ExcStep (s.truncate cause rest).exc
  /-- The append of a record of its own, and what the turn in progress then does (R163). -/
  | goneOn (ring : Ring) (ports : PerPort PortState) :
      s.ExcStep (State.goOn { s with ring := ring, ports := ports, exc := s.exc.told }).exc

theorem State.ExcStep.same (s : State) : s.ExcStep s.exc := .handed s.exc.evalList s.exc.truncation

theorem execPointEvaluation_exc {s t : State} (h : execPointEvaluation s = .next t) : s.ExcStep t.exc := by
  unfold execPointEvaluation at h
  split at h
  · next r rest _ =>
    split at h <;> cases h
    · next hready => exact .evaluated r rest hready
    · exact .same s
  · cases h; exact .same s

theorem execTruncation_exc {s t : State} (h : execTruncation s = .next t) : s.ExcStep t.exc := by
  unfold execTruncation at h
  split at h
  · next cause rest _ =>
    split at h <;> cases h
    · next hready => exact .truncated cause rest hready
    · exact .same s
  · cases h; exact .same s

theorem execRingAppend_exc {s t : State} (h : execRingAppend s = .next t) : s.ExcStep t.exc := by
  unfold execRingAppend at h
  split at h
  · cases h; exact .same s
  · next w _ =>
    split at h <;> cases h
    · exact .same s
    · next body _ =>
      cases w with
      | exceedance => exact .goneOn _ _
      | geometry => exact .handed _ s.exc.truncation
      | marking | base | runControl => exact .same s

theorem execExceedanceRunStart_exc {s t : State} (h : execExceedanceRunStart s = .next t) :
    s.ExcStep t.exc := by
  unfold execExceedanceRunStart at h
  split at h
  · cases h; exact .same s
  · split at h <;> cases h
    · exact .runStart _
    · exact .same s

theorem execClassChange_exc {p : Port} {s t : State} (h : execClassChange p s = .next t) :
    s.ExcStep t.exc := by
  refine State.serve_next (P := fun t => s.ExcStep t.exc) h (.same s) (fun _ => .same s) fun r _ _ => ?_
  dsimp only
  split
  · exact .same s
  · split
    · exact .same s
    · split
      · exact .same s
      · split
        · next hroom =>
          refine .queued _ ?_
          simpa only [Bool.or_eq_true, List.any_eq_true, beq_iff_eq, decide_eq_true_eq] using hroom
        · exact .same s

/-- What a command can make of the exceedance unit. -/
theorem exec_exc {c : Instr} {s t : State} (h : exec c s = .next t) : s.ExcStep t.exc := by
  rcases exec_restarts_or_mayBecome h with ⟨-, rfl | ⟨links, rfl⟩⟩ | hm
  · obtain ⟨_, _, _, _, _, _, _, _, _, _, _, hr⟩ := restarted_eq s.pending resetStore (.all .down)
    rw [hr]; exact .reset
  · obtain ⟨_, _, _, _, _, _, _, _, _, _, _, hr⟩ := restarted_eq s.pending s.store.afterResetPart links
    rw [hr]; exact .reset
  · cases c with
    | resetLine => exact hm.elim
    | pointEvaluation => exact execPointEvaluation_exc h
    | truncation => exact execTruncation_exc h
    | ringAppend => exact execRingAppend_exc h
    | exceedanceRunStart => exact execExceedanceRunStart_exc h
    | classChange p => exact execClassChange_exc h
    | flushFinished => obtain ⟨_, _, _, rfl⟩ := hm; exact .handed _ _
    | truncationFinished => obtain ⟨_, _, _, _, _, _, rfl⟩ := hm; exact .handed _ _
    | _ =>
      repeat obtain ⟨_, hm⟩ := hm
      exact .same s

/-! ## The laws stay -/

theorem applyClass_frame (u : ExceedanceUnit) (r : PointRecord) :
    ∃ cls queue out, u.applyClass r = { u with cls := cls, classQueue := queue, out := out } := by
  unfold ExceedanceUnit.applyClass
  split
  · exact ⟨_, _, _, rfl⟩
  · split
    · exact ⟨_, _, _, rfl⟩
    · exact ⟨_, _, _, rfl⟩

/-- Noting a class change writes no level (R123). -/
theorem noteClassChange_ok {a b : Nat} {ts : List Tracker} (h : ∀ t ∈ ts, trackerOk t) :
    ∀ t ∈ noteClassChange a b ts, trackerOk t := by
  unfold noteClassChange
  split
  · exact h
  · intro t ht
    obtain ⟨t', ht', rfl⟩ := List.mem_map.mp ht
    cases t' with
    | none => trivial
    | some g => exact h (some g) ht'

theorem clearTrackers_lawful : clearTrackers.length = 16 ∧ ∀ t ∈ clearTrackers, trackerOk t := by
  refine ⟨rfl, fun t ht => ?_⟩
  rw [List.eq_of_mem_replicate ht]
  trivial

theorem State.ExcStep.keeps_trackers {s : State} {u : ExceedanceUnit} (h : s.ExcStep u)
    (hs : s.exc.TrackersLawful) : u.TrackersLawful := by
  have htruncate (s' : State) (cause closed next) (hs' : s'.exc.TrackersLawful) :
      (s'.truncateFrom cause closed next).exc.TrackersLawful := by
    obtain ⟨_, hx⟩ := s'.truncateFrom_exc cause closed next
    rw [hx]
    exact s'.actFrom_trackersLawful (rest := .truncation cause closed) (fun _ _ _ _ => trivial) hs'
  cases h with
  | reset => exact clearTrackers_lawful
  | runStart cls => exact clearTrackers_lawful
  | handed list report => exact hs
  | queued e h => exact hs
  | evaluated r rest h =>
    obtain ⟨_, _, _, hu⟩ := applyClass_frame { s.exc with evalList := rest, evaluated := r.point } r
    unfold State.evaluate
    dsimp only
    rw [hu]
    split
    · exact hs
    · refine State.actFrom_trackersLawful (fun _ _ _ ht => judge_trackerOk ht) ⟨?_, ?_⟩
      · simpa using hs.1
      · exact noteClassChange_ok hs.2
  | truncated cause rest h => exact htruncate _ cause _ _ hs
  | goneOn ring ports =>
    unfold State.goOn
    split
    · exact hs
    · exact State.actFrom_trackersLawful (fun _ _ _ ht => judge_trackerOk ht) hs
    · exact htruncate _ _ _ _ hs

/-- The class record of an applied entry is the only record that the application hands on (R110). -/
theorem applyClass_out_length (u : ExceedanceUnit) (r : PointRecord) :
    (u.applyClass r).out.length ≤ u.out.length + 1 := by
  unfold ExceedanceUnit.applyClass
  split
  · omega
  · split <;> simp

theorem ExceedanceUnit.ready_iff {u : ExceedanceUnit} : u.ready = true ↔ u.out = [] ∧ u.turn = none := by
  simp [ExceedanceUnit.ready]

theorem State.ExcStep.keeps_turn {s : State} {u : ExceedanceUnit} (h : s.ExcStep u)
    (hs : s.exc.TurnLawful) : u.TurnLawful := by
  have htruncate (s' : State) (cause closed next) (hlen : s'.exc.trackers.length = 16)
      (hout : s'.exc.out.length ≤ 1) (hnext : next ≤ 16) :
      (s'.truncateFrom cause closed next).exc.TurnLawful := by
    obtain ⟨_, hx⟩ := s'.truncateFrom_exc cause closed next
    rw [hx]
    exact s'.actFrom_turnLawful (rest := .truncation cause closed) (fun _ _ _ => truncateTracker_grows ..)
      (fun _ => rfl) hlen hout hnext
  obtain ⟨hlen, hout, hturn⟩ := hs
  cases h with
  | reset => exact ⟨rfl, by decide, fun x hx => by cases hx⟩
  | runStart cls => exact ⟨rfl, hout, hturn⟩
  | handed list report => exact ⟨hlen, hout, hturn⟩
  | queued e h => exact ⟨hlen, hout, hturn⟩
  | evaluated r rest h =>
    obtain ⟨hnone, hidle⟩ := ExceedanceUnit.ready_iff.mp h
    have hone := applyClass_out_length { s.exc with evalList := rest, evaluated := r.point } r
    obtain ⟨_, _, _, hu⟩ := applyClass_frame { s.exc with evalList := rest, evaluated := r.point } r
    unfold State.evaluate
    dsimp only
    rw [hu] at hone ⊢
    simp only [hnone, List.length_nil, Nat.zero_add] at hone
    split
    · exact ⟨hlen, hone, fun x hx => by simp [hidle] at hx⟩
    · exact State.actFrom_turnLawful (fun _ _ _ => judge_grows ..) (fun _ => rfl) (by simpa using hlen) hone
        (by omega)
  | truncated cause rest h => exact htruncate _ cause _ _ hlen hout (by omega)
  | goneOn ring ports =>
    have htold : s.exc.told.out.length ≤ 1 := by simp only [ExceedanceUnit.told, List.length_tail]; omega
    unfold State.goOn
    split
    · next hidle => exact ⟨hlen, htold, fun x hx => by cases hidle.symm.trans hx⟩
    · next r next hx =>
      exact State.actFrom_turnLawful (fun _ _ _ => judge_grows ..) (fun _ => rfl) hlen htold
        (hturn _ hx).2.le
    · next cause closed next hx => exact htruncate _ _ _ _ hlen htold (hturn _ hx).2.le

/-! ## The class queue (R106, R107) -/

theorem insertClass_pairwise (e : ClassEntry) {q : List ClassEntry}
    (h : q.Pairwise (fun x y => x.effective < y.effective)) :
    (insertClass e q).Pairwise (fun x y => x.effective < y.effective) := by
  induction q with
  | nil => simp [insertClass]
  | cons x q ih =>
    obtain ⟨hx, hq⟩ := List.pairwise_cons.mp h
    unfold insertClass
    split_ifs with hlt heq
    · refine List.pairwise_cons.mpr ⟨fun y hy => ?_, ih hq⟩
      rcases mem_insertClass hy with rfl | hy
      · exact hlt
      · exact hx y hy
    · exact List.pairwise_cons.mpr ⟨fun y hy => heq ▸ hx y hy, hq⟩
    · refine List.pairwise_cons.mpr ⟨fun y hy => ?_, h⟩
      rcases List.mem_cons.mp hy with rfl | hy
      · omega
      · have := hx y hy
        omega

/-- An entry that takes the place of one with its effective point makes the queue no longer (R107). -/
theorem insertClass_length_of_mem {e : ClassEntry} {q : List ClassEntry}
    (h : q.Pairwise (fun x y => x.effective < y.effective)) (he : ∃ x ∈ q, x.effective = e.effective) :
    (insertClass e q).length = q.length := by
  induction q with
  | nil => simp at he
  | cons x q ih =>
    obtain ⟨hx, hq⟩ := List.pairwise_cons.mp h
    obtain ⟨y, hy, hye⟩ := he
    unfold insertClass
    split_ifs with hlt heq
    · rcases List.mem_cons.mp hy with rfl | hy
      · omega
      · simp [ih hq ⟨y, hy, hye⟩]
    · rfl
    · rcases List.mem_cons.mp hy with rfl | hy
      · omega
      · have := hx y hy
        omega

theorem applyClass_lawful {u : ExceedanceUnit} (h : u.ClassLawful) (r : PointRecord) :
    (u.applyClass r).ClassLawful := by
  unfold ExceedanceUnit.applyClass
  split
  · exact h
  · next e rest hq =>
    split
    · obtain ⟨hlen, hord⟩ := h
      rw [hq] at hlen hord
      exact ⟨(Nat.le_succ _).trans hlen, hord.of_cons⟩
    · exact h

theorem State.ExcStep.keeps_classes {s : State} {u : ExceedanceUnit} (h : s.ExcStep u)
    (hs : s.exc.ClassLawful) : u.ClassLawful := by
  have htruncate (s' : State) (cause closed next) (hs' : s'.exc.ClassLawful) :
      (s'.truncateFrom cause closed next).exc.ClassLawful := by
    obtain ⟨_, hx⟩ := s'.truncateFrom_exc cause closed next
    rw [hx]
    exact hs'
  cases h with
  | reset => exact ⟨by decide, .nil⟩
  | runStart cls => exact ⟨by simp [ExceedanceUnit.runStart], .nil⟩
  | handed list report => exact hs
  | queued e h =>
    refine ⟨?_, insertClass_pairwise e hs.2⟩
    rcases h with he | hroom
    · exact (insertClass_length_of_mem hs.2 he).trans_le hs.1
    · exact (insertClass_length_le e _).trans hroom
  | evaluated r rest h =>
    have hu := applyClass_lawful (u := { s.exc with evalList := rest, evaluated := r.point }) hs r
    unfold State.evaluate
    dsimp only
    split
    · exact hu
    · exact hu
  | truncated cause rest h => exact htruncate _ _ _ _ hs
  | goneOn ring ports =>
    unfold State.goOn
    split
    · exact hs
    · exact hs
    · exact htruncate _ _ _ _ hs

/-- Settles O30: each law is one of the exceedance unit, kept by whatever a command can make of it. -/
theorem exceedanceLawsStay : Obligations.ExceedanceLawsStay := by
  unfold Obligations.ExceedanceLawsStay
  refine ⟨fun s t hs h => ?trackers, fun s t hs h => ?classes, fun s t hs h => ?turn⟩
  case trackers =>
    exact step_keeps (P := State.TrackerLaw) (fun _ _ hs => hs)
      (fun _ _ _ hs h => (exec_exc h).keeps_trackers hs) hs h
  case classes =>
    exact step_keeps (P := State.ClassLaw) (fun _ _ hs => hs)
      (fun _ _ _ hs h => (exec_exc h).keeps_classes hs) hs h
  case turn =>
    exact step_keeps (P := State.TurnLaw) (fun _ _ hs => hs)
      (fun _ _ _ hs h => (exec_exc h).keeps_turn hs) hs h

end Sys2Proof.Machine
end

section
/-! PROOFS. Exceedances (07): the trackers' acts in full, the evaluation of a point, truncations, and the
exceedance number. -/

namespace Sys2Proof.Machine

/-! ## Opening and exceeding points (R116 to R118, R124, R125) -/

/-- R124 and R125 at the end of an opening or an EXCEEDING point, in full. -/
theorem applyBoth_eq (x : Judging) (c : Nat) (e : Sense) (v : Int) (g : Progress) (y : Tally) :
    applyBoth x c e v g y =
      let answer := y.marking.decideMark x.marking (markTarget x.sampling x.marking x.record.point)
        x.record.point (.tracker c e)
      let asks := x.marking.trigger ≤ g.level ∧ g.mark = none
      let urgent := g.level = 3 ∧ g.urgent = false
      (some { g with
          urgent := g.urgent || decide (g.level = 3)
          mark := if asks then some answer.2 else g.mark },
        { number := y.number
          counts := if urgent then { y.counts with urgent := satInc 65535 y.counts.urgent } else y.counts
          out := if urgent then y.out ++ [urgentRecord c e x.record v] else y.out
          marking := if asks then answer.1 else y.marking }) := by
  by_cases hu : g.level = 3 ∧ g.urgent = false
  · have hurgent : (g.urgent || decide (g.level = 3)) = true := by simp [hu.1]
    by_cases ha : x.marking.trigger ≤ g.level ∧ g.mark = none
    · simp only [applyBoth, applyUrgent, applyMark, if_pos hu, if_pos ha, hurgent]
    · simp only [applyBoth, applyUrgent, applyMark, if_pos hu, if_neg ha, hurgent]
  · have hurgent : (g.urgent || decide (g.level = 3)) = g.urgent := by
      cases hg : g.urgent with
      | true => rfl
      | false => simpa [hg] using hu
    by_cases ha : x.marking.trigger ≤ g.level ∧ g.mark = none
    · simp only [applyBoth, applyUrgent, applyMark, if_neg hu, if_pos ha, hurgent]
    · simp only [applyBoth, applyUrgent, applyMark, if_neg hu, if_neg ha, hurgent]

/-- A CLEAR tracker opens at an EXCEEDING value (R116). -/
theorem judge_clear_of_exceeding {x : Judging} {c : Nat} {e : Sense} {n : Nat} {v : Int}
    (hv : x.record.value c = some v) (hz : zoneOf x.limits c x.cls e (some v) = .exceeding n) (y : Tally) :
    judge x c e none y = applyBoth x c e v (openedProgress x.record x.cls n v) y := by
  simp [judge, judgeClear, hv, hz]

/-- A CLEAR tracker does nothing on another zone (R116). -/
theorem judge_clear_of_not_exceeding {x : Judging} {c : Nat} {e : Sense}
    (h : ∀ n, zoneOf x.limits c x.cls e (x.record.value c) ≠ .exceeding n) (y : Tally) :
    judge x c e none y = (none, y) := by
  simp only [judge, judgeClear]
  split
  · next n v hz _ => exact absurd hz (h n)
  · rfl

/-- Settles O24: the opening is R124 and R125 on the exceedance as R116 fills it. -/
theorem clearTrackerOpens : Obligations.ClearTrackerOpens := by
  unfold Obligations.ClearTrackerOpens
  intro x c e y r
  refine ⟨?opens, fun h => judge_clear_of_not_exceeding h y⟩
  intro n v hv hz answer asks
  rw [judge_clear_of_exceeding hv hz, applyBoth_eq]
  simp only [openedProgress, and_true, Bool.false_or]
  rfl

theorem replacesPeak_iff (e : Sense) (v peak : Int) :
    replacesPeak e v peak = true ↔ match e with | .upper => peak < v | .lower => v < peak := by
  cases e <;> simp [replacesPeak]

/-- What steps 1 to 5 of R117 leave, with the peak as R118 judges it. -/
theorem Progress.exceed_eq (g : Progress) (e : Sense) (r : PointRecord) (cls n : Nat) (v : Int) :
    g.exceed e r cls n v =
      let replaced := replacesPeak e v g.peakValue
      { g with
        level := max g.level n, endPoint := r.point, endPosition := r.position
        correctionThroughEnd := g.correctionThroughEnd || g.correctionSinceEnd || r.corrected
        correctionSinceEnd := false, clearCount := 0, absentRun := 0
        peakPoint := if replaced then r.point else g.peakPoint
        peakPosition := if replaced then r.position else g.peakPosition
        peakValue := if replaced then v else g.peakValue
        classAtPeak := if replaced then cls else g.classAtPeak
        speedAtPeak := if replaced then r.speed else g.speedAtPeak } := by
  unfold Progress.exceed Progress.judgePeak
  dsimp only
  split <;> simp [*]

/-- Settles O25: R124 and R125 on what the EXCEEDING point makes of the exceedance (R117, R118). -/
theorem openTrackerExceeds : Obligations.OpenTrackerExceeds := by
  unfold Obligations.OpenTrackerExceeds
  intro x c e g y n v r hv hz replaced
  have hrep : replaced ↔ replacesPeak e v g.peakValue = true := (replacesPeak_iff ..).symm
  have hjudge : judge x c e (some g) y = applyBoth x c e v (g.exceed e r x.cls n v) y := by
    rw [judge_open_of_exceeding (hv ▸ hz), hv]; rfl
  rw [hjudge, applyBoth_eq, Progress.exceed_eq]
  refine ⟨_, _, rfl, rfl, rfl, rfl, rfl, rfl, rfl, rfl, rfl, rfl, rfl, rfl, fun h => ?peak,
    fun h => ?keptPeak, rfl, rfl, fun hnot h3 => ?urgent, fun h => ?noUrgent, fun h => ?noMark,
    fun hnone hle => ?mark⟩
  case peak => simp [hrep.mp h]
  case keptPeak => simp [mt hrep.mpr h]
  case urgent => simp [hnot, h3, urgentRecord, r]
  case noUrgent =>
    have hno : ¬ (max g.level n = 3 ∧ g.urgent = false) := by
      rintro ⟨h3, hnot⟩
      exact h.elim (by simp [hnot]) (absurd h3)
    simp only [if_neg hno, and_self]
  case noMark =>
    have hno : ¬ (x.marking.trigger ≤ max g.level n ∧ g.mark = none) := by
      rintro ⟨hle, hnone⟩
      exact h.elim (absurd hnone) (by omega)
    simp only [if_neg hno, and_self]
  case mark =>
    simp only [hle, hnone, and_self, if_true]
    exact ⟨rfl, rfl⟩

/-! ## Closing (R126 to R128) -/

theorem ExceedanceCounts.raiseLevel_eq (n : ExceedanceCounts) {level : Nat} (h1 : 1 ≤ level)
    (h3 : level ≤ 3) :
    n.raiseLevel level = if level = 1 then { n with level1 := satInc 65535 n.level1 }
      else if level = 2 then { n with level2 := satInc 65535 n.level2 }
      else { n with level3 := satInc 65535 n.level3 } := by
  obtain rfl | rfl | rfl : level = 1 ∨ level = 2 ∨ level = 3 := by omega
  all_goals rfl

/-- Settles O27: the two outcomes of a closing, and the closing that a NO_LIMIT zone makes at once. -/
theorem exceedanceClosed : Obligations.ExceedanceClosed := by
  unfold Obligations.ExceedanceClosed
  refine ⟨?closing, fun x c e g y hz => by simp [judge, judgeOpen, hz, Judging.close]⟩
  intro l sam c e why g y h1 h3 n y'
  obtain ⟨hlt, hclose⟩ | ⟨hle, hclose⟩ := closeExceedance_cases l sam c e why g y
  · have hy : y' = _ := hclose
    rw [hy]
    exact ⟨rfl, fun _ => ⟨rfl, rfl, rfl⟩, fun h => absurd hlt (Nat.not_lt.mpr h)⟩
  · have hy : y' = _ := hclose
    rw [hy]
    refine ⟨rfl, fun h => absurd h (Nat.not_lt.mpr hle), fun _ =>
      ⟨rfl, ExceedanceCounts.raiseLevel_eq _ h1 h3, ?_⟩⟩
    have hwhy : (why == .absentRun || (why == .limitsLost && !g.classChanged))
        = decide (why = .absentRun ∨ (why = .limitsLost ∧ g.classChanged = false)) := by
      rw [Bool.decide_or, Bool.decide_and]
      cases g.classChanged <;> rfl
    simp only [exceedanceRecord, hwhy]
    rfl

/-! ## The evaluation of a point (R109, R115) -/

theorem Store.takeUpLimits_full (st : Store) :
    st.takeUpLimits = { st with
      stagedLim := false, installedLim := if st.stagedLim then st.committed.limits else st.installedLim } := by
  cases h : st.stagedLim <;> simp [Store.takeUpLimits, h]
  rw [← h]

/-- The first class-queue entry is applied where its effective point is the record's (R109). -/
theorem applyClass_of_due {u : ExceedanceUnit} {r : PointRecord} {e : ClassEntry} {q : List ClassEntry}
    (hq : u.classQueue = e :: q) (he : e.effective = r.point) :
    u.applyClass r
      = { u with cls := e.cls, classQueue := q, out := u.out ++ [classRecord r u.cls e] } := by
  simp [ExceedanceUnit.applyClass, hq, he]

theorem applyClass_of_not_due {u : ExceedanceUnit} {r : PointRecord}
    (h : ∀ e q, u.classQueue = e :: q → e.effective ≠ r.point) : u.applyClass r = u := by
  unfold ExceedanceUnit.applyClass
  split
  · rfl
  · next e q hq => rw [if_neg (h e q hq)]

/-- The evaluation of a paused record ends with the class applied: it reaches no tracker (R115, R130). -/
theorem State.evaluate_of_paused (s : State) {r : PointRecord} (rest : List EvalItem)
    (h : r.paused = true) :
    s.evaluate r rest = { s with
      store := s.store.takeUpLimits
      exc := { s.exc with evalList := rest, evaluated := r.point }.applyClass r } := by
  simp [State.evaluate, h]

/-- The evaluation of another record goes to the trackers from the first on (R115). -/
theorem State.evaluate_of_not_paused (s : State) {r : PointRecord} (rest : List EvalItem)
    (h : r.paused = false) :
    s.evaluate r rest =
      let u := { s.exc with evalList := rest, evaluated := r.point }.applyClass r
      State.judgeFrom { s with
        store := s.store.takeUpLimits
        exc := { u with trackers := noteClassChange s.exc.cls u.cls u.trackers } } r 0 := by
  simp [State.evaluate, h]

/-- With a record waiting, acting in turn leaves the trackers and what they change as they are; the turn in
progress comes to the same number. -/
theorem State.actFrom_of_out {s : State} (h : s.exc.out ≠ []) (act : Nat → Tracker → Tally → Tracker × Tally)
    (next : Nat) (rest : Nat → Turn) :
    s.actFrom act next rest = { s with
      exc := { s.exc with turn := if next < s.exc.trackers.length then some (rest next) else none } } := by
  have hout : (s.exc.tally s.marking).out ≠ [] := h
  simp only [State.actFrom, actInTurn_of_out hout, List.take_append_drop]
  rfl

theorem execPointEvaluation_not_ready {s : State} {r : PointRecord} {rest : List EvalItem}
    (hl : s.exc.evalList = .point r :: rest) (h : s.exc.out ≠ [] ∨ s.exc.turn ≠ none) :
    exec .pointEvaluation s = .next s := by
  have hready : ¬ s.exc.ready = true := by
    rw [ExceedanceUnit.ready_iff]
    rintro ⟨ho, ht⟩
    exact h.elim (absurd ho) (absurd ht)
  change execPointEvaluation s = _
  simp [execPointEvaluation, hl, hready]

theorem execPointEvaluation_ready {s : State} {r : PointRecord} {rest : List EvalItem}
    (hl : s.exc.evalList = .point r :: rest) (ho : s.exc.out = []) (ht : s.exc.turn = none) :
    exec .pointEvaluation s = .next (s.evaluate r rest).grant := by
  change execPointEvaluation s = _
  simp [execPointEvaluation, hl, ExceedanceUnit.ready_iff.mpr ⟨ho, ht⟩]

theorem State.judgeFrom_actsTo (s : State) (r : PointRecord) (next : Nat)
    (h : next ≤ s.exc.trackers.length) :
    s.actsTo (s.judgeFrom r next) (fun i => judge (s.judging r) (trackerChannel i) (trackerSense i)) next
      (.point r) :=
  s.actFrom_actsTo _ next (.point r) h

/-- What an evaluation writes: the exceedance unit, the marking unit and the take-up of the LIMITS image. -/
theorem State.evaluate_frame (s : State) (r : PointRecord) (rest : List EvalItem) :
    s.evaluate r rest = { s with
      exc := (s.evaluate r rest).exc, marking := (s.evaluate r rest).marking
      store := s.store.takeUpLimits }
    ∧ (s.evaluate r rest).exc.evaluated = r.point ∧ (s.evaluate r rest).exc.evalList = rest
    ∧ (s.evaluate r rest).exc.truncation = s.exc.truncation := by
  obtain ⟨_, _, _, hu⟩ := applyClass_frame { s.exc with evalList := rest, evaluated := r.point } r
  unfold State.evaluate
  dsimp only
  rw [hu]
  split <;> exact ⟨rfl, rfl, rfl, rfl⟩

section
variable {s : State} {r : PointRecord} (rest : List EvalItem) {e : ClassEntry} {q : List ClassEntry}

/-- An evaluation that applies a class-queue entry hands on its CLASS record, and with that waiting no tracker
acts (R109, R110, R115). -/
theorem State.evaluate_of_due (ho : s.exc.out = []) (hq : s.exc.classQueue = e :: q)
    (he : e.effective = r.point) :
    ∃ trackers turn, s.evaluate r rest = { s with
        store := s.store.takeUpLimits
        exc := { s.exc with
          evalList := rest, evaluated := r.point, cls := e.cls, classQueue := q
          out := [classRecord r s.exc.cls e], trackers := trackers, turn := turn } }
      ∧ (r.paused = true → trackers = s.exc.trackers ∧ turn = s.exc.turn)
      ∧ (r.paused = false → trackers = noteClassChange s.exc.cls e.cls s.exc.trackers
        ∧ turn = if 0 < s.exc.trackers.length then some (.point r 0) else none) := by
  have happly : { s.exc with evalList := rest, evaluated := r.point }.applyClass r
      = { s.exc with
          evalList := rest, evaluated := r.point, cls := e.cls, classQueue := q
          out := [classRecord r s.exc.cls e] } :=
    (applyClass_of_due (u := { s.exc with evalList := rest, evaluated := r.point }) hq he).trans
      (by rw [ho]; rfl)
  cases hp : r.paused with
  | true =>
    rw [State.evaluate_of_paused s rest hp, happly]
    exact ⟨_, _, rfl, fun _ => ⟨rfl, rfl⟩, fun h => by cases h⟩
  | false =>
    rw [State.evaluate_of_not_paused s rest hp, happly, State.judgeFrom]
    dsimp only
    rw [State.actFrom_of_out (by simp)]
    exact ⟨_, _, rfl, fun h => (by cases h), fun _ => ⟨rfl, by simp⟩⟩

/-- An evaluation that applies none lets the trackers act (R115). -/
theorem State.evaluate_of_not_due
    (h : ∀ e q, s.exc.classQueue = e :: q → e.effective ≠ r.point) :
    (r.paused = true → s.evaluate r rest = { s with
      store := s.store.takeUpLimits, exc := { s.exc with evalList := rest, evaluated := r.point } })
    ∧ (r.paused = false → s.evaluate r rest = State.judgeFrom { s with
      store := s.store.takeUpLimits
      exc := { s.exc with evalList := rest, evaluated := r.point } } r 0) := by
  have happly := applyClass_of_not_due (u := { s.exc with evalList := rest, evaluated := r.point }) h
  refine ⟨fun hp => by rw [State.evaluate_of_paused s rest hp, happly], fun hp => ?_⟩
  rw [State.evaluate_of_not_paused s rest hp, happly]
  simp [noteClassChange]

end

/-- Settles O23: the take-up, the class of the point, and the trackers acting in turn. -/
theorem pointEvaluated : Obligations.PointEvaluated := by
  unfold Obligations.PointEvaluated
  intro act
  refine ⟨fun s r rest hl => ⟨execPointEvaluation_not_ready hl, fun ho ht =>
    ⟨_, execPointEvaluation_ready hl ho ht, ?_⟩⟩, fun s r next hturn hnext => ?goesOn⟩
  case goesOn =>
    have hgo : s.goOn = s.judgeFrom r next := by simp [State.goOn, hturn]
    rw [hgo]
    exact ⟨s.judgeFrom_actsTo r next hnext.le, rfl⟩
  obtain ⟨hframe, hpoint, hlist, hreport⟩ := s.evaluate_frame r rest
  have hstore : (s.evaluate r rest).store = s.store.takeUpLimits := by rw [hframe]
  simp only [State.grant_exc, State.grant_store, State.grant_marking, hstore, s.store.takeUpLimits_full]
  refine ⟨?_, hpoint, hlist, hreport, trivial, trivial, trivial, trivial, trivial, trivial, ?due, ?notDue⟩
  · rw [← s.store.takeUpLimits_full, ← hframe]
  case due =>
    intro e q hq he
    obtain ⟨ts, turn, hev, hpaused, hacting⟩ := s.evaluate_of_due rest ho hq he
    rw [hev]
    refine ⟨rfl, rfl, rfl, rfl, rfl, rfl, fun hp => ?_, fun hp => ⟨fun hlen => ?_, ?_⟩⟩
    · obtain ⟨h1, h2⟩ := hpaused hp
      exact ⟨h1, h2.trans ht⟩
    · rw [(hacting hp).2, hlen]; rfl
    · simp only [(hacting hp).1, noteClassChange, eq_comm (a := s.exc.cls)]
  case notDue =>
    intro hnot
    obtain ⟨hpaused, hacting⟩ := s.evaluate_of_not_due rest hnot
    cases hp : r.paused with
    | true =>
      rw [hpaused hp]
      exact ⟨rfl, rfl, fun _ => ⟨rfl, rfl, rfl, rfl, ho, ht⟩, fun h => by cases h⟩
    | false =>
      rw [hacting hp]
      refine ⟨rfl, rfl, fun h => (by cases h), fun _ => ?_⟩
      have hacts := State.judgeFrom_actsTo { s with
        store := s.store.takeUpLimits, exc := { s.exc with evalList := rest, evaluated := r.point } } r 0
        (Nat.zero_le _)
      simp only [State.judging, s.store.takeUpLimits_full] at hacts ⊢
      exact hacts

end Sys2Proof.Machine
end

section
/-! PROOFS. Truncations, the exceedance number, and Class Change (06, 07). -/

namespace Sys2Proof.Machine

/-! ## Truncation (R129 to R131) -/

/-- A closing changes the mark queue and the count of urgent records in nothing (R126). -/
theorem closeExceedance_kept (l : LimitsImage) (sam : SamplingImage) (c : Nat) (e : Sense) (why : Closing)
    (g : Progress) (y : Tally) :
    (closeExceedance l sam c e why g y).marking = y.marking
      ∧ (closeExceedance l sam c e why g y).counts.urgent = y.counts.urgent := by
  obtain ⟨-, h⟩ | ⟨-, h⟩ := closeExceedance_cases l sam c e why g y
  · rw [h]; exact ⟨rfl, rfl⟩
  · rw [h]
    refine ⟨rfl, ?_⟩
    unfold ExceedanceCounts.raiseLevel
    split <;> rfl

/-- A closing counts its exceedance once: as suppressed, or as a record under the next number (R126). -/
theorem closeExceedance_counts {l : LimitsImage} {sam : SamplingImage} {c : Nat} {e : Sense} {why : Closing}
    {g : Progress} {y : Tally} (hroom : y.counts.suppressed < 65535) :
    let y' := closeExceedance l sam c e why g y
    y'.number + y.out.length = y.number + y'.out.length
      ∧ y'.counts.suppressed + y'.out.length = y.counts.suppressed + y.out.length + 1 := by
  obtain ⟨-, h⟩ | ⟨-, h⟩ := closeExceedance_cases l sam c e why g y
  · rw [h]
    simp [satInc, hroom]
    omega
  · rw [h]
    have hsup : (y.counts.raiseLevel g.level).suppressed = y.counts.suppressed := by
      unfold ExceedanceCounts.raiseLevel
      split <;> rfl
    simp [hsup]
    omega

theorem openCount_cons (t : Tracker) (ts : List Tracker) :
    openCount (t :: ts) = (if t.isSome then 1 else 0) + openCount ts := by
  cases t <;> simp [openCount]
  omega

theorem openCount_append (ts us : List Tracker) : openCount (ts ++ us) = openCount ts + openCount us := by
  simp [openCount]

section
variable (l : LimitsImage) (sam : SamplingImage) (why : Closing)

/-- The act of a truncation on each tracker (R129). -/
def truncateAct (i : Nat) : Tracker → Tally → Tracker × Tally :=
  truncateTracker l sam why (trackerChannel i) (trackerSense i)

/-- What the trackers of a truncation keep of what is beside them, and how the number follows the records. -/
theorem truncateAct_kept (i : Nat) (ts : List Tracker) (y : Tally) :
    let y' := (actInTurn (truncateAct l sam why) i ts y).2.1
    y'.marking = y.marking ∧ y'.counts.urgent = y.counts.urgent
      ∧ y'.number + y.out.length = y.number + y'.out.length := by
  refine actInTurn_tally (Q := fun y' => y'.marking = y.marking ∧ y'.counts.urgent = y.counts.urgent
      ∧ y'.number + y.out.length = y.number + y'.out.length) (fun i t y' _ hy => ?_) i ts ⟨rfl, rfl, rfl⟩
  obtain ⟨hm, hu, hn⟩ := hy
  cases t with
  | none => exact ⟨hm, hu, hn⟩
  | some g =>
    obtain ⟨hm', hu'⟩ := closeExceedance_kept l sam (trackerChannel i) (trackerSense i) why g y'
    refine ⟨hm'.trans hm, hu'.trans hu, ?_⟩
    obtain ⟨-, h⟩ | ⟨-, h⟩ := closeExceedance_cases l sam (trackerChannel i) (trackerSense i) why g y'
    · simpa [truncateAct, truncateTracker, h] using hn
    · simp only [truncateAct, truncateTracker, h, List.length_append, List.length_singleton]
      omega

/-- Every tracker that was OPEN is counted as suppressed, recorded, or still OPEN (R126, R129). -/
theorem truncateAct_counts (i : Nat) (ts : List Tracker) (y : Tally)
    (hroom : y.counts.suppressed + openCount ts ≤ 65535) :
    let r := actInTurn (truncateAct l sam why) i ts y
    r.2.1.counts.suppressed + r.2.1.out.length + openCount r.1
      = y.counts.suppressed + y.out.length + openCount ts := by
  induction ts generalizing i y with
  | nil => rfl
  | cons t ts ih =>
    rw [openCount_cons] at hroom ⊢
    unfold actInTurn
    split
    · dsimp only
      rw [openCount_cons]
      cases t with
      | none =>
        simp only [Option.isSome_none, Bool.false_eq_true, if_false, Nat.zero_add] at hroom ⊢
        have := ih (i + 1) y hroom
        simpa [truncateAct, truncateTracker] using this
      | some g =>
        simp only [Option.isSome_some, if_true] at hroom
        obtain ⟨-, hc⟩ := closeExceedance_counts (l := l) (sam := sam) (c := trackerChannel i)
          (e := trackerSense i) (why := why) (g := g) (y := y) (by omega)
        have hle : (closeExceedance l sam (trackerChannel i) (trackerSense i) why g y).counts.suppressed
            ≤ y.counts.suppressed + 1 := by
          obtain ⟨-, h⟩ | ⟨-, h⟩ := closeExceedance_cases l sam (trackerChannel i) (trackerSense i) why g y
          · rw [h]; simp only [satInc]; split <;> omega
          · rw [h]
            unfold ExceedanceCounts.raiseLevel
            split <;> simp
        have := ih (i + 1) (closeExceedance l sam (trackerChannel i) (trackerSense i) why g y) (by omega)
        simp only [truncateAct, truncateTracker, Option.isSome_none, Option.isSome_some, Bool.false_eq_true,
          if_false, if_true] at this ⊢
        omega
    · dsimp only
      rw [openCount_cons]

end

/-- The trackers' part of a truncation that goes on. -/
def State.truncating (s : State) (cause : TruncationCause) (closed next : Nat) : State :=
  s.actFrom (truncateAct s.store.installedLim s.store.committed.sampling cause.closing) next
    (.truncation cause closed)

/-- A truncation that goes on ends with the trackers' part, or, with no turn left, with the report due
(R129). -/
theorem State.truncateFrom_cases (s : State) (cause : TruncationCause) (closed next : Nat) :
    ((s.truncating cause closed next).exc.turn ≠ none
      ∧ s.truncateFrom cause closed next = s.truncating cause closed next)
    ∨ ((s.truncating cause closed next).exc.turn = none
      ∧ s.truncateFrom cause closed next = (s.truncating cause closed next).truncated cause closed) := by
  have heq : s.truncateFrom cause closed next =
      if (s.truncating cause closed next).exc.turn.isSome then s.truncating cause closed next
      else (s.truncating cause closed next).truncated cause closed := rfl
  cases h : (s.truncating cause closed next).exc.turn with
  | none => exact .inr ⟨rfl, by rw [heq, h]; rfl⟩
  | some x => exact .inl ⟨by simp, by rw [heq, h]; rfl⟩

/-- The trackers of a truncation leave the marking unit as it is (R131). -/
theorem State.truncating_frame (s : State) (cause : TruncationCause) (closed next : Nat) :
    s.truncating cause closed next = { s with exc := (s.truncating cause closed next).exc } := by
  have hm : (s.truncating cause closed next).marking = s.marking :=
    (truncateAct_kept s.store.installedLim s.store.committed.sampling cause.closing next
      (s.exc.trackers.drop next) (s.exc.tally s.marking)).1
  calc s.truncating cause closed next
      = { s with exc := (s.truncating cause closed next).exc
                 marking := (s.truncating cause closed next).marking } := rfl
    _ = { s with exc := (s.truncating cause closed next).exc } := by rw [hm]

theorem State.truncateFrom_frame (s : State) (cause : TruncationCause) (closed next : Nat) :
    s.truncateFrom cause closed next = { s with
      exc := (s.truncateFrom cause closed next).exc, store := (s.truncateFrom cause closed next).store } := by
  obtain ⟨-, h⟩ | ⟨-, h⟩ := s.truncateFrom_cases cause closed next
  · rw [h, State.truncating_frame]
  · rw [h, State.truncating_frame]
    rfl

/-- What the trackers of a truncation leave of the counts, beside what each act does: the number follows the
records, and every exceedance is counted (R126, R129). -/
theorem State.truncating_counts (s : State) (cause : TruncationCause) (closed next : Nat)
    (hout : s.exc.out = []) :
    let t := s.truncating cause closed next
    t.exc.number = s.exc.number + t.exc.out.length ∧ t.exc.counts.urgent = s.exc.counts.urgent
      ∧ (s.exc.counts.suppressed + openCount s.exc.trackers ≤ 65535 →
        t.exc.counts.suppressed + t.exc.out.length + openCount t.exc.trackers
          = s.exc.counts.suppressed + openCount s.exc.trackers) := by
  obtain ⟨-, hu, hn⟩ := truncateAct_kept s.store.installedLim s.store.committed.sampling cause.closing next
    (s.exc.trackers.drop next) (s.exc.tally s.marking)
  have hsplit : openCount s.exc.trackers
      = openCount (s.exc.trackers.take next) + openCount (s.exc.trackers.drop next) := by
    rw [← openCount_append, List.take_append_drop]
  refine ⟨?_, hu, fun hroom => ?_⟩
  · simpa [ExceedanceUnit.tally, hout, State.truncating, State.actFrom, ExceedanceUnit.settle] using hn
  · have hc := truncateAct_counts s.store.installedLim s.store.committed.sampling cause.closing next
      (s.exc.trackers.drop next) (s.exc.tally s.marking) (by
        have : (s.exc.tally s.marking).counts = s.exc.counts := rfl
        rw [this]
        omega)
    simp only [ExceedanceUnit.tally, hout, List.length_nil, Nat.add_zero] at hc
    simp only [State.truncating, State.actFrom, ExceedanceUnit.settle, ExceedanceUnit.tally, openCount_append,
      hout]
    omega

/-- A truncation that goes on with no record waiting does what R129 says. -/
theorem State.truncateFrom_truncatesTo (s : State) (cause : TruncationCause) {closed next : Nat}
    (hout : s.exc.out = []) (hnext : next ≤ s.exc.trackers.length) :
    s.truncatesTo (s.truncateFrom cause closed next) cause closed next := by
  have hacts : s.actsTo (s.truncating cause closed next)
      (truncateAct s.store.installedLim s.store.committed.sampling cause.closing) next
      (.truncation cause closed) := s.actFrom_actsTo _ next _ hnext
  have hframe := s.truncating_frame cause closed next
  obtain ⟨hn, hu, hc⟩ := s.truncating_counts cause closed next hout
  obtain ⟨hturn, h⟩ | ⟨hturn, h⟩ := s.truncateFrom_cases cause closed next
  · rw [h]
    refine ⟨?_, rfl, rfl, rfl, rfl, ?_, hn, hu, hc, fun _ => ⟨rfl, ?_⟩, fun hno => absurd hno hturn⟩
    · cases cause <;> exact hacts
    · rw [hframe]
    · rw [hframe]
  · rw [h]
    refine ⟨?_, rfl, rfl, rfl, rfl, ?_, hn, hu, hc, fun hno => absurd hturn hno, fun _ => ⟨rfl, ?_, ?_⟩⟩
    · cases cause <;> exact hacts
    · change (s.truncating cause closed next).marking = _
      rw [hframe]
    · intro i k hi hk
      obtain ⟨n, y, -, hn, -, -, hlen, hact, hmore, -⟩ := hacts
      have hlt : i < s.exc.trackers.length := hlen ▸ (List.getElem?_eq_some_iff.mp hk).1
      have hall : n = s.exc.trackers.length := by
        by_contra hne
        exact absurd hturn (by rw [(hmore (by omega)).2]; simp)
      have hdone := ((hact i _ k (List.getElem?_eq_getElem hlt) hk).1 ⟨hi, by omega⟩).2
      exact (congrArg Prod.fst hdone).symm
    · cases cause with
      | pause => change (s.truncating .pause closed next).store = _; rw [hframe]
      | runEnd =>
        change (s.truncating .runEnd closed next).store.takeUpLimits = _
        rw [hframe, Store.takeUpLimits_full]

/-- Settles O28: the taking of a request and its going on are one truncation from a tracker on (R129). -/
theorem truncationClosesEveryTracker : Obligations.TruncationClosesEveryTracker := by
  unfold Obligations.TruncationClosesEveryTracker
  refine ⟨fun s => ?always, fun s cause rest hl => ⟨fun h => ?notReady, fun ho ht => ?ready⟩,
    fun s cause closed next hturn hnext hout => ?goesOn⟩
  case always =>
    change ∃ t, execTruncation s = .next t
    unfold execTruncation
    split
    · split <;> exact ⟨_, rfl⟩
    · exact ⟨_, rfl⟩
  case notReady =>
    have hready : ¬ s.exc.ready = true := by
      rw [ExceedanceUnit.ready_iff]
      rintro ⟨ho, ht⟩
      exact h.elim (absurd ho) (absurd ht)
    change execTruncation s = _
    simp [execTruncation, hl, hready]
  case ready =>
    have hexec : exec .truncation s = .next (s.truncate cause rest).grant := by
      change execTruncation s = _
      simp [execTruncation, hl, ExceedanceUnit.ready_iff.mpr ⟨ho, ht⟩]
    refine ⟨_, hexec, ?_, ?_⟩
    · have hframe := State.truncateFrom_frame { s with exc := { s.exc with evalList := rest } } cause
        (openCount s.exc.trackers) 0
      unfold State.truncate
      rw [hframe]
      rfl
    · exact State.truncateFrom_truncatesTo { s with exc := { s.exc with evalList := rest } } cause ho
        (Nat.zero_le _)
  case goesOn =>
    have hgo : s.goOn = s.truncateFrom cause closed next := by simp [State.goOn, hturn]
    rw [hgo]
    exact ⟨s.truncateFrom_truncatesTo cause hout hnext.le, s.truncateFrom_frame cause closed next⟩

/-! ## The exceedance number (R127) -/

/-- What one step of an evaluation or a truncation can do to the number and the records handed on: nothing
that is an EXCEEDANCE record, or the next number with the one record that carries it, none waiting before
(R115, R127). -/
def ExceedanceUnit.numbersTo (u u' : ExceedanceUnit) : Prop :=
  (u'.number = u.number ∧ ∀ r, .exceedance r ∈ u'.out → .exceedance r ∈ u.out)
    ∨ (u'.number = u.number + 1 ∧ u.out = []
      ∧ ∃ r : ExceedanceRecord, u'.out = [.exceedance r] ∧ r.number = u'.number)

theorem ExceedanceUnit.numbersTo_of_grows {u u' : ExceedanceUnit} {m m' : MarkingUnit}
    (h : (u.tally m).grows (u'.tally m')) (ho : u.out = []) : u.numbersTo u' := by
  obtain ⟨hn, h | ⟨x, h⟩⟩ | ⟨hn, r, hr, h⟩ := h
  · exact .inl ⟨hn, fun r hr => by rwa [show u'.out = u.out from h] at hr⟩
  · refine .inl ⟨hn, fun r hr => ?_⟩
    rw [show u'.out = u.out ++ _ from h, ho] at hr
    simp at hr
  · refine .inr ⟨hn, ho, r, ?_, hr.trans hn.symm⟩
    rw [show u'.out = u.out ++ _ from h, ho]
    rfl

theorem State.actFrom_numbersTo {s : State} {act : Nat → Tracker → Tally → Tracker × Tally}
    (hact : ∀ i t (y : Tally), y.grows (act i t y).2) (next : Nat) (rest : Nat → Turn) :
    s.exc.numbersTo (s.actFrom act next rest).exc := by
  by_cases ho : s.exc.out = []
  · exact ExceedanceUnit.numbersTo_of_grows (m := s.marking)
      (actInTurn_grows hact next (s.exc.trackers.drop next) (s.exc.tally s.marking)) ho
  · rw [State.actFrom_of_out ho]
    exact .inl ⟨rfl, fun _ h => h⟩

theorem State.truncateFrom_numbersTo (s : State) (cause : TruncationCause) (closed next : Nat) :
    s.exc.numbersTo (s.truncateFrom cause closed next).exc := by
  obtain ⟨_, hx⟩ := s.truncateFrom_exc cause closed next
  rw [hx]
  exact s.actFrom_numbersTo (fun _ _ _ => truncateTracker_grows ..) next (.truncation cause closed)

theorem State.evaluate_numbersTo (s : State) (r : PointRecord) (rest : List EvalItem)
    (ho : s.exc.out = []) : s.exc.numbersTo (s.evaluate r rest).exc := by
  by_cases hdue : ∃ e q, s.exc.classQueue = e :: q ∧ e.effective = r.point
  · obtain ⟨e, q, hq, he⟩ := hdue
    obtain ⟨_, _, hev, -, -⟩ := s.evaluate_of_due rest ho hq he
    rw [hev]
    exact .inl ⟨rfl, fun x hx => by simp [classRecord] at hx⟩
  · obtain ⟨hpaused, hacting⟩ := s.evaluate_of_not_due (r := r) rest
      (fun e q hq he => hdue ⟨e, q, hq, he⟩)
    cases hp : r.paused with
    | true => rw [hpaused hp]; exact .inl ⟨rfl, fun _ h => h⟩
    | false =>
      rw [hacting hp]
      exact State.actFrom_numbersTo (s := { s with
        store := s.store.takeUpLimits, exc := { s.exc with evalList := rest, evaluated := r.point } })
        (fun _ _ _ => judge_grows ..) 0 (.point r)

theorem State.goOn_numbersTo (s : State) : s.exc.numbersTo s.goOn.exc := by
  unfold State.goOn
  split
  · exact .inl ⟨rfl, fun _ h => h⟩
  · exact State.actFrom_numbersTo (fun _ _ _ => judge_grows ..) _ _
  · exact s.truncateFrom_numbersTo _ _ _

/-- The outcomes of an append: nothing granted; the append of another writer's record, which leaves the
exceedance unit its number, its counts and its records; or that of the exceedance unit's oldest, with which
its turn goes on (R163). -/
theorem execRingAppend_cases {s t : State} (h : execRingAppend s = .next t) :
    t = s
    ∨ (t.exc.number = s.exc.number ∧ t.exc.counts = s.exc.counts ∧ t.exc.out = s.exc.out)
    ∨ ∃ body x ring ports, s.exc.out.head? = some body ∧ t.ring.contents.getLast? = some x ∧ x.body = body
      ∧ t.exc = (State.goOn { s with ring := ring, ports := ports, exc := s.exc.told }).exc := by
  unfold execRingAppend at h
  split at h
  · exact .inl (Host.Outcome.next.inj h).symm
  · next w _ =>
    split at h
    · exact .inl (Host.Outcome.next.inj h).symm
    · next body hbody =>
      obtain rfl := Host.Outcome.next.inj h
      cases w with
      | exceedance =>
        refine .inr (.inr ⟨body, { sequence := s.ring.head, run := s.run.number, body := body }, _, _,
          hbody, ?_, rfl, rfl⟩)
        rw [State.grant_contents, State.appendRecord, (State.tellWriter_kept _ _).1]
        simp [Ring.append]
      | geometry | marking | base | runControl => exact .inr (.inl ⟨rfl, rfl, rfl⟩)

theorem execPointEvaluation_numbersTo {s t : State} (h : execPointEvaluation s = .next t) :
    s.exc.numbersTo t.exc := by
  unfold execPointEvaluation at h
  split at h
  · split at h <;> cases h
    · next hready => exact s.evaluate_numbersTo _ _ (ExceedanceUnit.ready_iff.mp hready).1
    · exact .inl ⟨rfl, fun _ h => h⟩
  · cases h; exact .inl ⟨rfl, fun _ h => h⟩

theorem execTruncation_numbersTo {s t : State} (h : execTruncation s = .next t) :
    s.exc.numbersTo t.exc := by
  unfold execTruncation at h
  split at h
  · next cause rest _ =>
    split at h <;> cases h
    · exact State.truncateFrom_numbersTo { s with exc := { s.exc with evalList := rest } } cause _ 0
    · exact .inl ⟨rfl, fun _ h => h⟩
  · cases h; exact .inl ⟨rfl, fun _ h => h⟩

/-- Settles O29: each step of the exceedance unit numbers one record at most; the append goes on from what
the record appended leaves, and the other commands write none of it. -/
theorem exceedanceNumbersFollow : Obligations.ExceedanceNumbersFollow := by
  unfold Obligations.ExceedanceNumbersFollow
  refine ⟨fun s t c hc hlen h => ?acting, fun s t c h h1 h2 h3 h4 h5 h6 h7 h8 => ?others⟩
  case acting =>
    have taken (hc : c ≠ .ringAppend) (hto : s.exc.numbersTo t.exc) :
        (t.exc.number = s.exc.number ∨ (t.exc.number = s.exc.number + 1
          ∧ (∃ r, t.exc.out = [.exceedance r] ∧ r.number = t.exc.number)
          ∧ (c ≠ .ringAppend → s.exc.out = [])
          ∧ (c = .ringAppend → ∃ b x, s.exc.out = [b] ∧ t.ring.contents.getLast? = some x ∧ x.body = b)))
        ∧ ∀ r, .exceedance r ∈ t.exc.out → .exceedance r ∈ s.exc.out
          ∨ (r.number = s.exc.number + 1 ∧ t.exc.number = s.exc.number + 1) := by
      obtain ⟨hn, hr⟩ | ⟨hn, ho, r, hout, hr⟩ := hto
      · exact ⟨.inl hn, fun r h => .inl (hr r h)⟩
      · refine ⟨.inr ⟨hn, ⟨r, hout, hr⟩, fun _ => ho, fun h => absurd h hc⟩, fun r' h' => .inr ⟨?_, hn⟩⟩
        rw [hout, List.mem_singleton, Record.exceedance.injEq] at h'
        rw [h', hr, hn]
    rcases hc with rfl | rfl | rfl
    · exact taken (by simp) (execPointEvaluation_numbersTo h)
    · exact taken (by simp) (execTruncation_numbersTo h)
    · obtain rfl | ⟨hn, -, ho⟩ | ⟨b, x, ring, ports, hb, hx, hxb, hexc⟩ := execRingAppend_cases h
      · exact ⟨.inl rfl, fun _ h => .inl h⟩
      · exact ⟨.inl hn, fun r h => .inl (ho ▸ h)⟩
      · have hone : s.exc.out = [b] := by
          cases hout : s.exc.out with
          | nil => simp [hout] at hb
          | cons b' rest =>
            have hnil : rest = [] := by simpa [hout] using hlen
            simpa [hout, hnil] using hb
        have hto := State.goOn_numbersTo { s with ring := ring, ports := ports, exc := s.exc.told }
        rw [← hexc] at hto
        have htold : s.exc.told.out = [] := by simp [ExceedanceUnit.told, hone]
        obtain ⟨hn, hr⟩ | ⟨hn, -, r, hout, hr⟩ := hto
        · exact ⟨.inl hn, fun r h => absurd (hr r h) (by simp [htold])⟩
        · refine ⟨.inr ⟨hn, ⟨r, hout, hr⟩, fun h => absurd rfl h, fun _ => ⟨b, x, hone, hx, hxb⟩⟩,
            fun r' h' => .inr ⟨?_, hn⟩⟩
          rw [hout, List.mem_singleton, Record.exceedance.injEq] at h'
          rw [h', hr]
          exact hn
  case others =>
    rcases exec_restarts_or_mayBecome h with ⟨hrestart, -⟩ | hm
    · cases c <;> simp [mayRestart] at hrestart h5 h6 h7 h8
    · cases c with
      | pointEvaluation => exact absurd rfl h1
      | truncation => exact absurd rfl h2
      | ringAppend => exact absurd rfl h3
      | exceedanceRunStart => exact absurd rfl h4
      | resetLine => exact hm.elim
      | _ =>
        repeat obtain ⟨_, hm⟩ := hm
        exact ⟨rfl, rfl, rfl⟩

/-! ## Answers to the request dispatched (R189, R190) -/

theorem State.refuse_of_front {s : State} {p : Port} {r : Request} {rest : List Request}
    (h : (s.ports.get p).requests = r :: rest) (c : Completion) :
    s.refuse p r c = s.replied p r rest c [] := State.answer_of_front h c []

theorem State.refuseField_of_front {s : State} {p : Port} {r : Request} {rest : List Request}
    (h : (s.ports.get p).requests = r :: rest) (index : Nat) :
    s.refuseField p r index = s.replied p r rest .invalidField [natField 2 index] :=
  State.answer_of_front h .invalidField _

theorem State.answerOk_of_front {s : State} {p : Port} {r : Request} {rest : List Request}
    (h : (s.ports.get p).requests = r :: rest) (fs : List Field) :
    s.answerOk p r fs = s.replied p r rest .ok fs := State.answer_of_front h .ok fs

/-- A request finds the run IDLE while it is IDLE or closing (R154, R156). -/
theorem State.requestRunState_idle_iff (s : State) :
    s.requestRunState = .idle ↔ s.run.state = .idle ∨ s.run.closing = true := by
  unfold State.requestRunState
  split <;> simp_all

/-! ## Class Change (R107) -/

/-- An entry with the effective point of one in the queue takes its place (R107). -/
theorem insertClass_replaces {e x : ClassEntry} {before after : List ClassEntry}
    (h : (before ++ x :: after).Pairwise (fun x y => x.effective < y.effective))
    (hx : x.effective = e.effective) :
    insertClass e (before ++ x :: after) = before ++ e :: after := by
  induction before with
  | nil => simp [insertClass, hx]
  | cons y before ih =>
    obtain ⟨hy, hrest⟩ := List.pairwise_cons.mp h
    have hlt : y.effective < e.effective := hx ▸ hy x (by simp)
    simp [insertClass, hlt, ih hrest]

/-- An entry with an effective point of its own is put in its place of the order (R107). -/
theorem insertClass_inserts {e : ClassEntry} {q : List ClassEntry}
    (h : q.Pairwise (fun x y => x.effective < y.effective)) (hne : ∀ x ∈ q, x.effective ≠ e.effective) :
    ∃ before after, q = before ++ after ∧ insertClass e q = before ++ e :: after
      ∧ (∀ x ∈ before, x.effective < e.effective) ∧ ∀ x ∈ after, e.effective < x.effective := by
  induction q with
  | nil => exact ⟨[], [], rfl, rfl, by simp, by simp⟩
  | cons x q ih =>
    obtain ⟨hx, hq⟩ := List.pairwise_cons.mp h
    have hxe := hne x (by simp)
    by_cases hlt : x.effective < e.effective
    · obtain ⟨before, after, hsplit, hins, hbefore, hafter⟩ := ih hq fun y hy => hne y (by simp [hy])
      refine ⟨x :: before, after, by simp [hsplit], by simp [insertClass, hlt, hins], ?_, hafter⟩
      simpa [hlt] using hbefore
    · refine ⟨[], x :: q, rfl, by simp [insertClass, hlt, hxe], by simp, fun y hy => ?_⟩
      rcases List.mem_cons.mp hy with rfl | hy
      · omega
      · have := hx y hy
        omega

/-- Settles O31: the checks one after another, and the place of the entry. -/
theorem classChangeOutcomes : Obligations.ClassChangeOutcomes := by
  unfold Obligations.ClassChangeOutcomes
  intro s p tag point cls rest hpoint r hd effective queue refused
  have hfront := hd.2.2
  have hp : r.field 0 4 = point := Request.field_at 12 tag [] [cls] rfl hpoint
  have hc : r.field 4 1 = cls.toNat :=
    Request.field_byte_at 12 tag (leNat 4 point) [] cls (leNat_length 4 point)
  refine ⟨?outcomes, fun hlaw => ⟨fun before x after hq hx => ?_, insertClass_inserts (e := ⟨effective, cls.toNat, point, p⟩) hlaw.2⟩⟩
  case outcomes =>
    change execClassChange p s = _
    unfold execClassChange
    rw [State.serve_of_length (code := 12) hd rfl (by simp [r])]
    refine congrArg Host.Outcome.next ?_
    have hq : (s.exc.classQueue.any (fun e => e.effective == effective)
        || decide (s.exc.classQueue.length < Config.classCapacity)) = true
          ↔ ¬((∀ e ∈ s.exc.classQueue, e.effective ≠ effective) ∧ 8 ≤ s.exc.classQueue.length) := by
      simp only [Bool.or_eq_true, List.any_eq_true, beq_iff_eq, Config.classCapacity]
      grind
    refine if_congr (by simp) (State.refuse_of_front hfront _) ?_
    refine if_congr s.requestRunState_idle_iff (State.refuse_of_front hfront _) ?_
    rw [hp, hc]
    by_cases h0 : point = 0
    · simp only [badClassField, if_pos h0]
      exact State.refuseField_of_front hfront 0
    by_cases h3 : 3 < cls.toNat
    · simp only [badClassField, if_neg h0, if_pos h3]
      exact State.refuseField_of_front hfront 1
    simp only [badClassField, if_neg h0, if_neg h3]
    refine (if_congr hq (State.answerOk_of_front
      (s := { s with exc := { s.exc with classQueue := queue } }) hfront _) (State.refuse_of_front hfront _)).trans ?_
    exact ite_not _ _ _
  · have h := insertClass_replaces (e := ⟨effective, cls.toNat, point, p⟩) (hq ▸ hlaw.2) hx
    rw [← hq] at h
    exact h

end Sys2Proof.Machine
end

section
/-! PROOFS. Marking (08): the decision of a mark request, firing, Manual Mark, and the laws of R138 and R146. -/

namespace Sys2Proof.Machine

/-! ## The decision of a mark request (R137, R138) -/

theorem mergesWith_iff (mk : MarkingImage) (t : Int) (q : List MarkEntry) :
    mergesWith mk t q = true ↔ ∃ x ∈ q, |x.target - t| ≤ mk.merge * 1000 := by
  simp only [mergesWith, List.any_eq_true, decide_eq_true_eq]
  refine exists_congr fun x => and_congr_right fun _ => ?_
  rw [Int.abs_eq_natAbs]
  omega

/-- An insertion stands behind the smaller targets and, in an ordered queue of other targets, before the
greater ones (R138). -/
theorem insertMark_split (e : MarkEntry) (q : List MarkEntry) :
    ∃ before after, q = before ++ after ∧ insertMark e q = before ++ e :: after
      ∧ (∀ x ∈ before, x.target < e.target)
      ∧ (q.Pairwise (fun x y => x.target < y.target) → (∀ x ∈ q, x.target ≠ e.target) →
          ∀ x ∈ after, e.target < x.target) := by
  induction q with
  | nil => exact ⟨[], [], rfl, rfl, by simp, by simp⟩
  | cons x q ih =>
    by_cases hlt : x.target < e.target
    · obtain ⟨before, after, hq, hins, hbefore, hafter⟩ := ih
      refine ⟨x :: before, after, by simp [hq], by simp [insertMark, hlt, hins], ?_, fun hord hne => ?_⟩
      · exact List.forall_mem_cons.mpr ⟨hlt, hbefore⟩
      · exact hafter (List.pairwise_cons.mp hord).2 (List.forall_mem_cons.mp hne).2
    · refine ⟨[], x :: q, rfl, by simp [insertMark, hlt], by simp, fun hord hne => ?_⟩
      have hx : e.target < x.target := by
        have := (List.forall_mem_cons.mp hne).1
        omega
      exact List.forall_mem_cons.mpr ⟨hx, fun y hy => hx.trans ((List.pairwise_cons.mp hord).1 y hy)⟩

/-- Settles O32: each condition excludes the outcomes of `decideMark_cases` but its own. -/
theorem markRequestDecided : Obligations.MarkRequestDecided := by
  unfold Obligations.MarkRequestDecided
  intro u mk t p src near d
  have hmerge : mergesWith mk t u.queue = true ↔ near := mergesWith_iff mk t u.queue
  refine ⟨fun hoff => ?off, fun hon hlate => ?late, fun hon hrm hnear => ?merged,
    fun hon hrm hfar hfull => ?dropped, fun hon hrm hfar hroom => ?queued⟩
  case off => simp [d, MarkingUnit.decideMark, hoff]
  case late => simp [d, MarkingUnit.decideMark, hon, hlate]
  case merged => simp [d, MarkingUnit.decideMark, hon, not_le.mpr hrm, hmerge.mpr hnear]
  all_goals have hno : mergesWith mk t u.queue = false := Bool.eq_false_iff.mpr fun h => hfar (hmerge.mp h)
  case dropped => simp [d, MarkingUnit.decideMark, hon, not_le.mpr hrm, hno, Config.markCapacity, hfull]
  case queued =>
    have hd : d = ({ u with
        queue := insertMark { target := t, point := p, source := src } u.queue
        counts := { u.counts with queued := u.counts.queued + 1 } }, .queued) := by
      simp [d, MarkingUnit.decideMark, hon, not_le.mpr hrm, hno, Config.markCapacity, not_le.mpr hroom]
    rw [hd]
    obtain ⟨before, after, hq, hins, hbefore, hafter⟩ := insertMark_split ⟨t, p, src⟩ u.queue
    exact ⟨rfl, rfl, before, after, hq, hins, hbefore,
      fun hlaw => hafter hlaw.2 (target_ne_of_not_mergesWith hno)⟩

/-! ## Firing (R140 to R142) -/

/-- Settles O33: the entries fired are the longest front part of the queue that the travel reaches. -/
theorem marksFireAtRunTravel : Obligations.MarksFireAtRunTravel := by
  unfold Obligations.MarksFireAtRunTravel
  intro u mk travel k moment paused
  refine ⟨u.queue.takeWhile (fun e => decide (e.target ≤ travel)), ?_, ?_, ?_, rfl, rfl, rfl, ?_⟩
  · exact List.takeWhile_append_dropWhile.symm
  · intro x hx
    simpa using List.mem_takeWhile_imp hx
  · intro x rest h
    rw [MarkingUnit.take_queue] at h
    have := List.head?_dropWhile_not (fun e : MarkEntry => decide (e.target ≤ travel)) u.queue
    simpa [h] using this
  · simp [MarkingUnit.take, List.isEmpty_iff]

/-! ## Manual Mark (R143) -/

theorem MarkOutcome.code_eq (o : MarkOutcome) : o.code = match o with
    | .none => 0 | .queued => 1 | .merged => 2 | .late => 3 | .dropped => 4 := by
  cases o <;> rfl

/-- Settles O34: the checks one after another, then the decision of R137. -/
theorem manualMarkOutcomes : Obligations.ManualMarkOutcomes := by
  unfold Obligations.ManualMarkOutcomes
  intro s p tag j rest hj r hd mk t d refused
  have hfront := hd.2.2
  have hfield : r.field 0 4 = j := by
    have := Request.field_at (n := 4) 13 tag [] [] rfl hj
    rwa [List.append_nil] at this
  change execManualMark p s = _
  unfold execManualMark
  rw [State.serve_of_length (code := 13) hd rfl (by simp [r])]
  rw [hfield]
  refine congrArg Host.Outcome.next ?_
  refine if_congr (by simp) (State.refuse_of_front hfront _) ?_
  refine if_congr s.requestRunState_idle_iff (State.refuse_of_front hfront _) ?_
  refine if_congr Iff.rfl (State.refuseField_of_front hfront 0) ?_
  refine if_congr Iff.rfl (State.refuse_of_front hfront _) ?_
  refine if_congr Iff.rfl (State.refuse_of_front hfront _) ?_
  refine if_congr (by simp [mk]) (State.refuse_of_front hfront _) ?_
  exact (State.answerOk_of_front (s := { s with marking := d.1 }) hfront _).trans
    (congrArg (fun n => State.replied { s with marking := d.1 } p r rest .ok [natField 1 n, ⟨8, t⟩]) d.2.code_eq)

/-! ## What keeps the laws of the mark queue (R138, R146) -/

/-- `u'` is ordered within its bound where `u` is, and balanced where `u` is (R138, R146). -/
def MarkingUnit.lawsKept (u u' : MarkingUnit) : Prop :=
  (markQueueOk u.queue → markQueueOk u'.queue) ∧ (u.balanced → u'.balanced)

theorem MarkingUnit.lawsKept_refl (u : MarkingUnit) : u.lawsKept u := ⟨id, id⟩

theorem MarkingUnit.lawsKept.trans {u u' u'' : MarkingUnit} (h : u.lawsKept u') (h' : u'.lawsKept u'') :
    u.lawsKept u'' := ⟨h'.1 ∘ h.1, h'.2 ∘ h.2⟩

theorem MarkingUnit.lawsKept_of_empty (u : MarkingUnit) {u' : MarkingUnit} (hq : u'.queue = [])
    (hb : u.balanced → u'.balanced) : u.lawsKept u' := by
  refine ⟨fun _ => ?_, hb⟩
  rw [hq]
  exact ⟨by simp [Config.markCapacity], .nil⟩

theorem MarkingUnit.discardAll_lawsKept (u : MarkingUnit) : u.lawsKept u.discardAll :=
  u.lawsKept_of_empty rfl fun h => by
    simp only [MarkingUnit.balanced, MarkingUnit.discardAll, List.length_nil] at h ⊢
    omega

theorem MarkingUnit.runStart_lawsKept (u : MarkingUnit) : u.lawsKept u.runStart :=
  u.lawsKept_of_empty rfl fun _ => rfl

theorem MarkingUnit.resetMarking_lawsKept (u : MarkingUnit) : u.lawsKept resetMarking :=
  u.lawsKept_of_empty rfl fun _ => rfl

theorem MarkingUnit.take_lawsKept (u : MarkingUnit) (mk : MarkingImage) (travel : Int) (k : Word32)
    (moment : Nat) (paused : Bool) : u.lawsKept (u.take mk travel k moment paused) := by
  obtain ⟨fired, hq, -, -, -, hcounts, -, -⟩ := marksFireAtRunTravel u mk travel k moment paused
  have hlen := congrArg List.length hq
  rw [List.length_append] at hlen
  refine ⟨fun h => ?_, fun h => ?_⟩
  · rw [hq] at h
    exact ⟨by have := h.1; rw [List.length_append] at this; omega, (List.pairwise_append.mp h.2).2.1⟩
  · unfold MarkingUnit.balanced at h ⊢
    rw [hcounts]
    dsimp only
    omega

/-- A decision keeps the laws: a request is queued only with room and where it merges with none (R137). -/
theorem MarkingUnit.decideMark_lawsKept (u : MarkingUnit) (mk : MarkingImage) (t : Int) (p : Nat)
    (src : MarkSource) : u.lawsKept (u.decideMark mk t p src).1 := by
  obtain ⟨-, h⟩ | ⟨-, -, h⟩ | ⟨-, -, -, h⟩ | ⟨-, -, -, -, h⟩ | ⟨-, -, hno, hroom, h⟩ :=
    u.decideMark_cases mk t p src <;> rw [h]
  · exact u.lawsKept_refl
  · exact ⟨id, id⟩
  · exact ⟨id, id⟩
  · exact ⟨id, id⟩
  · refine ⟨fun hs => ⟨?_, insertMark_pairwise _ _ hs.2 (target_ne_of_not_mergesWith hno)⟩, fun hs => ?_⟩
    · rw [insertMark_length]
      exact hroom
    · simp only [MarkingUnit.balanced, insertMark_length] at hs ⊢
      omega

/-! ## What a command can make of the marking unit -/

theorem judge_marking (x : Judging) (c : Nat) (e : Sense) (t : Tracker) (y : Tally) :
    y.marking.lawsKept (judge x c e t y).2.marking := by
  obtain ⟨v, g, h, -⟩ | ⟨g, why, h⟩ | ⟨k, h, -⟩ := judge_cases x c e t y
  · have hurgent : (applyUrgent x c e v g y).2.marking = y.marking := by
      obtain ⟨-, -, h⟩ | ⟨-, h⟩ := applyUrgent_cases x c e v g y <;> rw [h]
    rw [h, applyBoth, ← hurgent]
    obtain ⟨-, -, h⟩ | ⟨-, h⟩ :=
      applyMark_cases x c e (applyUrgent x c e v g y).1 (applyUrgent x c e v g y).2 <;> rw [h]
    · exact MarkingUnit.decideMark_lawsKept ..
    · exact MarkingUnit.lawsKept_refl _
  · rw [h]
    have hkept : (x.close c e why g y).2.marking = y.marking := (closeExceedance_kept ..).1
    rw [hkept]
    exact y.marking.lawsKept_refl
  · rw [h]
    exact y.marking.lawsKept_refl

theorem truncateTracker_marking (l : LimitsImage) (sam : SamplingImage) (why : Closing) (c : Nat) (e : Sense)
    (t : Tracker) (y : Tally) : (truncateTracker l sam why c e t y).2.marking = y.marking := by
  cases t with
  | none => rfl
  | some g => exact (closeExceedance_kept ..).1

section
variable {s : State} {m : MarkingUnit}

/-- What trackers acting in turn keep of the marking unit. -/
theorem State.actFrom_marking {act : Nat → Tracker → Tally → Tracker × Tally} (hm : s.marking = m)
    (hact : ∀ i t (y : Tally), y.marking.lawsKept (act i t y).2.marking) (next : Nat) (rest : Nat → Turn) :
    m.lawsKept (s.actFrom act next rest).marking :=
  hm ▸ actInTurn_tally (Q := fun y => s.marking.lawsKept y.marking)
    (fun i t y _ hy => hy.trans (hact i t y)) next _ s.marking.lawsKept_refl

theorem State.judgeFrom_marking (hm : s.marking = m) (r : PointRecord) (next : Nat) :
    m.lawsKept (s.judgeFrom r next).marking :=
  State.actFrom_marking hm (fun _ _ _ => judge_marking ..) next _

theorem State.truncateFrom_marking (hm : s.marking = m) (cause : TruncationCause) (closed next : Nat) :
    m.lawsKept (s.truncateFrom cause closed next).marking := by
  have hact := State.actFrom_marking hm
    (act := fun i => truncateTracker s.store.installedLim s.store.committed.sampling cause.closing
      (trackerChannel i) (trackerSense i))
    (fun i t y => by rw [truncateTracker_marking]; exact y.marking.lawsKept_refl) next
    (.truncation cause closed)
  unfold State.truncateFrom
  dsimp only
  split <;> exact hact

theorem State.evaluate_marking (s : State) (r : PointRecord) (rest : List EvalItem) :
    s.marking.lawsKept (s.evaluate r rest).marking := by
  cases hr : r.paused with
  | true => rw [s.evaluate_of_paused rest hr]; exact s.marking.lawsKept_refl
  | false => rw [s.evaluate_of_not_paused rest hr]; exact State.judgeFrom_marking (by rfl) _ _

theorem State.goOn_marking (hm : s.marking = m) : m.lawsKept s.goOn.marking := by
  unfold State.goOn
  split
  · exact hm ▸ s.marking.lawsKept_refl
  · exact State.judgeFrom_marking hm _ _
  · exact State.truncateFrom_marking hm _ _ _

theorem State.handImage_marking (hm : s.marking = m) (sec : Section) (before : Images) :
    m.lawsKept (s.handImage sec before).marking := by
  have same : m.lawsKept s.marking := hm ▸ m.lawsKept_refl
  unfold State.handImage
  split
  · exact same
  · exact same
  · split
    · exact same
    · unfold State.putCalibration
      dsimp only
      rw [((State.SetFrame.ofInstall s s.store.committed.calibration).trans
        (State.SetFrame.ofFormedAll _ _)).marking]
      exact same
  · split <;> exact same
  · split <;> exact same
  · split
    · exact hm ▸ s.marking.discardAll_lawsKept
    · exact same

end

theorem execDistanceBaseStrobe_marking {s t : State} (h : execDistanceBaseStrobe s = .next t) :
    s.marking.lawsKept t.marking := by
  unfold execDistanceBaseStrobe at h
  split at h
  · cases h; exact s.marking.lawsKept_refl
  · next i rest _ =>
    cases h
    rw [(State.SetFrame.ofReady _).marking, State.grant_marking]
    dsimp only
    split
    · exact MarkingUnit.take_lawsKept ..
    · exact s.marking.lawsKept_refl

theorem execRingAppend_marking {s t : State} (h : execRingAppend s = .next t) :
    s.marking.lawsKept t.marking := by
  unfold execRingAppend at h
  split at h
  · cases h; exact s.marking.lawsKept_refl
  · next w _ =>
    split at h <;> cases h
    · exact s.marking.lawsKept_refl
    · cases w with
      | exceedance => exact State.goOn_marking rfl
      | geometry | marking | base | runControl => exact s.marking.lawsKept_refl

theorem execManualMark_marking {p : Port} {s t : State} (h : execManualMark p s = .next t) :
    s.marking.lawsKept t.marking := by
  have same := s.marking.lawsKept_refl
  refine State.serve_next (P := fun t => s.marking.lawsKept t.marking) h same (fun _ => same) fun r _ _ => ?_
  dsimp only
  split; · exact same
  split; · exact same
  split; · exact same
  split; · exact same
  split; · exact same
  split; · exact same
  exact MarkingUnit.decideMark_lawsKept ..

theorem exec_marking {c : Instr} {s t : State} (h : exec c s = .next t) : s.marking.lawsKept t.marking := by
  rcases exec_restarts_or_mayBecome h with ⟨-, rfl | ⟨links, rfl⟩⟩ | hm
  · obtain ⟨_, _, _, _, _, _, _, _, _, _, _, hr⟩ := restarted_eq s.pending resetStore (.all .down)
    rw [hr]; exact s.marking.resetMarking_lawsKept
  · obtain ⟨_, _, _, _, _, _, _, _, _, _, _, hr⟩ := restarted_eq s.pending s.store.afterResetPart links
    rw [hr]; exact s.marking.resetMarking_lawsKept
  · cases c with
    | resetLine => exact hm.elim
    | distanceBaseStrobe => exact execDistanceBaseStrobe_marking h
    | ringAppend => exact execRingAppend_marking h
    | pointEvaluation =>
      change execPointEvaluation s = _ at h
      unfold execPointEvaluation at h
      split at h
      · split at h <;> cases h
        · exact s.evaluate_marking _ _
        · exact s.marking.lawsKept_refl
      · cases h; exact s.marking.lawsKept_refl
    | truncation =>
      change execTruncation s = _ at h
      unfold execTruncation at h
      split at h
      · split at h <;> cases h
        · exact State.truncateFrom_marking (by rfl) _ _ _
        · exact s.marking.lawsKept_refl
      · cases h; exact s.marking.lawsKept_refl
    | markerPulseEnd => obtain ⟨_, rfl⟩ := hm; exact s.marking.lawsKept_refl
    | manualMark p => exact execManualMark_marking h
    | markingRunStart =>
      change execMarkingRunStart s = _ at h
      unfold execMarkingRunStart at h
      split at h <;> cases h
      · exact s.marking.runStart_lawsKept
      · exact s.marking.lawsKept_refl
    | truncationFinished =>
      change execTruncationFinished s = _ at h
      unfold execTruncationFinished at h
      have same := s.marking.lawsKept_refl
      split at h
      · split at h
        · split at h
          · cases h; exact same
          · split at h <;> cases h
            · exact s.marking.discardAll_lawsKept
            · exact same
          · cases h; exact same
          · cases h; exact same
        · cases h; exact same
      · cases h; exact same
    | commitSettings p =>
      obtain rfl | ⟨r, c, fields, rfl⟩ | ⟨r, sec, v, -, -, rfl⟩ := execCommitSettings_cases h
      · exact t.marking.lawsKept_refl
      · exact s.marking.lawsKept_refl
      · exact State.handImage_marking (by rfl) sec s.store.committed
    | _ =>
      repeat obtain ⟨_, hm⟩ := hm
      exact s.marking.lawsKept_refl

/-- Settles O35: what each command makes of the marking unit keeps its queue ordered and its counts
balanced. -/
theorem markingLawsStay : Obligations.MarkingLawsStay := by
  unfold Obligations.MarkingLawsStay
  exact ⟨fun s t hs h => step_keeps (P := State.MarkLaw) (fun _ _ hs => hs)
      (fun _ _ _ hs h => (exec_marking h).1 hs) hs h,
    fun s t c hs h => (exec_marking h).2 hs⟩

end Sys2Proof.Machine
end

section
/-! PROOFS. Survey links and delivery (10.3, 12): what each operation on a port leaves of the bounds of its
queues, of what a DOWN link empties, and of its reservation; and the laws of O60. -/

namespace Sys2Proof.Machine

/-! ## Requests of a port -/

theorem PortState.readNext_requests_length (q : PortState) :
    q.readNext.requests.length ≤ q.requests.length := by
  unfold PortState.readNext
  split
  · rfl
  · split
    · rfl
    · simp
    · rfl

theorem PortState.kick_requests_length (q : PortState) : q.kick.requests.length ≤ q.requests.length := by
  unfold PortState.kick
  split
  · rfl
  · split
    · next i rest _ =>
      dsimp only
      split
      · exact PortState.readNext_requests_length _
      · rfl
    · split <;> rfl

theorem PortState.place_requests_length (q : PortState) (i : ReplyItem) :
    (q.place i).requests.length ≤ q.requests.length := by
  unfold PortState.place
  split
  · rfl
  · exact PortState.kick_requests_length _

theorem PortState.overrunAt_requests_length (q : PortState) (r : Ring) :
    (q.overrunAt r).requests.length ≤ q.requests.length := by
  unfold PortState.overrunAt
  split
  · rfl
  · exact PortState.place_requests_length { q with cursor := r.oldest } _

theorem PortState.refillQueue_requests_length (q : PortState) (r : Ring) :
    (q.refillQueue r).requests.length ≤ q.requests.length := by
  unfold PortState.refillQueue
  dsimp only
  split
  · rw [PortState.fill_requests]
    split
    · exact q.overrunAt_requests_length r
    · rfl
  · rfl

/-! ## Moves of a port -/

/-- What the laws of a port ask of a change from `q` to `q'`: bounded queues stay bounded, a DOWN port stays
empty, and a reservation is kept, or taken under the generations `g` (R165, R178, R187, R189). -/
structure PortState.Moves (g : PerSection Word32) (q q' : PortState) : Prop where
  queues : q.queuesOk → q'.queuesOk
  quiet : q.quietWhenDown → q'.quietWhenDown
  reserved : ∀ r, q'.reservation = some r → q.reservation = some r ∨ r.generation = g.get r.sec

section
variable {g : PerSection Word32} {q q' q'' : PortState}

theorem PortState.Moves.refl (g : PerSection Word32) (q : PortState) : q.Moves g q :=
  ⟨id, id, fun _ => .inl⟩

theorem PortState.Moves.trans (h : q.Moves g q') (h' : q'.Moves g q'') : q.Moves g q'' where
  queues := h'.queues ∘ h.queues
  quiet := h'.quiet ∘ h.quiet
  reserved r hr := (h'.reserved r hr).elim (h.reserved r) .inr

/-- A change that leaves a DOWN port without requests, replies and items as it is, and otherwise keeps the
link, the stream and the transmit queue and adds no request. -/
theorem PortState.Moves.ofPlacing (hdown : q.link = .down → q.quietWhenDown → q' = q) (hlink : q'.link = q.link)
    (hreq : q'.requests.length ≤ q.requests.length) (hstream : q'.stream = q.stream)
    (htx : q'.txQueue = q.txQueue) (hres : q'.reservation = q.reservation) : q.Moves g q' where
  queues h := by
    obtain ⟨hr, ht, hn⟩ := h
    exact ⟨hreq.trans hr, by rwa [htx], by rwa [hstream, htx]⟩
  quiet h hd := by
    rw [hdown (hlink ▸ hd) h]
    exact h (hlink ▸ hd)
  reserved r hr := .inl (hres ▸ hr)

/-- A change of a port that has a request, whose link is therefore UP, where the change keeps the link. -/
theorem PortState.Moves.ofRequest (hreq : q.requests ≠ []) (hlink : q'.link = q.link)
    (hqueues : q.queuesOk → q'.queuesOk)
    (hres : ∀ r, q'.reservation = some r → q.reservation = some r ∨ r.generation = g.get r.sec) :
    q.Moves g q' where
  queues := hqueues
  quiet h hd := absurd (h (hlink ▸ hd)).1 hreq
  reserved := hres

theorem PortState.Moves.ofPlace (g : PerSection Word32) (q : PortState) (i : ReplyItem) :
    q.Moves g (q.place i) :=
  .ofPlacing (fun hd _ => q.place_down i hd) (q.place_link i) (q.place_requests_length i)
    (q.place_stream i) (q.place_txQueue i) (q.place_reservation i)

theorem PortState.Moves.ofRespond (g : PerSection Word32) (q : PortState) (code : Byte) (tag : Word16)
    (c : Completion) (fs : List Field) : q.Moves g (q.respond code tag c fs) := .ofPlace g q _

theorem PortState.Moves.ofOffer (g : PerSection Word32) (q : PortState) (n : Notice) :
    q.Moves g (q.offer n) := by
  unfold PortState.offer
  split
  · next h =>
    split
    · exact .ofPlace g q _
    · exact .ofPlacing (fun hd => absurd (hd.symm.trans h.1) (by simp)) rfl le_rfl rfl rfl rfl
  · exact .refl g q

theorem PortState.Moves.ofKick (g : PerSection Word32) (q : PortState) : q.Moves g q.kick :=
  .ofPlacing (fun hd h => by
      obtain ⟨-, hreplies, -, -, htx, -⟩ := h hd
      exact q.kick_idle hreplies htx)
    q.kick_link q.kick_requests_length q.kick_stream q.kick_txQueue q.kick_reservation

/-- The execution of the front request ends (R189). -/
theorem PortState.Moves.ofFinish (g : PerSection Word32) (q : PortState) :
    q.Moves g { q with requests := q.requests.tail } where
  queues h := ⟨by have := h.1; simp; omega, h.2.1, h.2.2⟩
  quiet h hd := by
    obtain ⟨hreq, hrest⟩ := h hd
    exact ⟨by simp [hreq], hrest⟩
  reserved _ := .inl

/-- A refill of an ACTIVE stream keeps the transmit queue within its bound (R165, R167). -/
theorem PortState.Moves.ofRefillQueue (g : PerSection Word32) (q : PortState) (ring : Ring) :
    q.Moves g (q.refillQueue ring) where
  queues h := by
    refine ⟨(q.refillQueue_requests_length ring).trans h.1, q.refillQueue_txQueue_length ring h.2.1,
      fun hn => ?_⟩
    rw [PortState.refillQueue_stream] at hn
    have : q.refillQueue ring = q := if_neg (by simp [hn])
    rw [this]
    exact h.2.2 hn
  quiet h hd := by
    rw [PortState.refillQueue_link] at hd
    have hn : q.stream = .none := (h hd).2.2.2.1
    have : q.refillQueue ring = q := if_neg (by simp [hn])
    rw [this]
    exact h hd
  reserved r hr := .inl (by rwa [PortState.refillQueue_reservation] at hr)

theorem PortState.Moves.ofRefill (g : PerSection Word32) (q : PortState) (ring : Ring) :
    q.Moves g (q.refill ring) := (PortState.Moves.ofRefillQueue g q ring).trans (.ofKick g _)

theorem PortState.Moves.ofRefillActive (g : PerSection Word32) (q : PortState) (ring : Ring) :
    q.Moves g (q.refillActive ring) := by
  unfold PortState.refillActive
  split
  · exact .ofRefill g q ring
  · exact .refl g q

theorem PortState.Moves.ofDropReservation (g : PerSection Word32) (q : PortState) (sec : Section) :
    q.Moves g (q.dropReservation sec) := by
  unfold PortState.dropReservation
  split
  · exact .refl g q
  · split
    · refine ⟨id, fun h hd => ?_, by simp⟩
      obtain ⟨hreq, hrep, htx, hstr, htxq, hjob, hpause, haw, -⟩ := h hd
      exact ⟨hreq, hrep, htx, hstr, htxq, hjob, hpause, haw, rfl⟩
    · exact .refl g q

theorem PortState.Moves.ofAnswerAwait (g : PerSection Word32) (q : PortState) (sec : Section)
    (fs : List Field) : q.Moves g (q.answerAwait sec fs) := by
  unfold PortState.answerAwait
  split
  · exact .refl g q
  · split
    · refine PortState.Moves.trans (q' := { q with await := none }) ⟨id, fun h hd => ?_, fun _ => .inl⟩
        (.ofRespond g _ _ _ _ _)
      obtain ⟨hreq, hrep, htx, hstr, htxq, hjob, hpause, -, hres⟩ := h hd
      exact ⟨hreq, hrep, htx, hstr, htxq, hjob, hpause, rfl, hres⟩
    · exact .refl g q

theorem PortState.Moves.ofAnswerPause (g : PerSection Word32) (q : PortState) : q.Moves g q.answerPause := by
  unfold PortState.answerPause
  split
  · exact .refl g q
  · refine PortState.Moves.trans (q' := { q with pendingPause := none }) ⟨id, fun h hd => ?_, fun _ => .inl⟩
      (.ofRespond g _ _ _ _ _)
    obtain ⟨hreq, hrep, htx, hstr, htxq, hjob, -, haw, hres⟩ := h hd
    exact ⟨hreq, hrep, htx, hstr, htxq, hjob, rfl, haw, hres⟩

theorem PortState.Moves.ofDrainPause (g : PerSection Word32) (q : PortState) : q.Moves g q.drainPause := by
  unfold PortState.drainPause
  split
  · next h =>
    refine PortState.Moves.trans (q' := { q with stream := .paused }) ⟨fun hq => ⟨hq.1, hq.2.1, by simp⟩,
      fun hq hd => ?_, fun _ => .inl⟩ (.ofAnswerPause g _)
    exact absurd ((hq hd).2.2.2.1.symm.trans h.1) (by simp)
  · exact .refl g q

theorem PortState.Moves.ofReplySent (g : PerSection Word32) (q : PortState) : q.Moves g q.replySent := by
  refine PortState.Moves.trans (q' := { q with tx := none }) ⟨id, fun h hd => ?_, fun _ => .inl⟩ (.ofKick g _)
  obtain ⟨hreq, hrep, -, hrest⟩ := h hd
  exact ⟨hreq, hrep, rfl, hrest⟩

theorem PortState.Moves.ofStreamSent (g : PerSection Word32) (q : PortState) (ring : Ring) :
    q.Moves g (q.streamSent ring) := by
  refine PortState.Moves.trans (q' := { q with tx := none, txQueue := q.txQueue.tail })
    ⟨fun h => ?_, fun h hd => ?_, fun _ => .inl⟩
    (((PortState.Moves.ofRefillQueue g _ ring).trans (.ofDrainPause g _)).trans (.ofKick g _))
  · obtain ⟨hr, ht, hn⟩ := h
    refine ⟨hr, by simp; omega, fun hs => ?_⟩
    have := hn hs
    simp
    omega
  · obtain ⟨hreq, hrep, -, hstr, htxq, hrest⟩ := h hd
    exact ⟨hreq, hrep, rfl, hstr, by simp [htxq], hrest⟩

/-- A frame taken makes the link UP, and queues a request with room alone (R186, R189). -/
theorem PortState.Moves.ofTakeFrame (g : PerSection Word32) (q : PortState) (bytes : List Byte) :
    q.Moves g (q.takeFrame bytes) := by
  unfold PortState.takeFrame
  split
  · exact ⟨id, id, fun _ => .inl⟩
  · exact ⟨id, id, fun _ => .inl⟩
  · next r _ =>
    have hup : q.Moves g { q with link := .up } := ⟨id, fun _ hd => (nomatch hd), fun _ => .inl⟩
    unfold PortState.takeRequest
    dsimp only
    split
    · next hroom =>
      refine ⟨fun h => ⟨?_, h.2⟩, fun _ hd => (nomatch hd), fun _ => .inl⟩
      simpa using hroom
    · split
      · exact hup.trans (.ofRespond g _ _ _ _ _)
      · exact hup

theorem PortState.Moves.ofGoDown (g : PerSection Word32) (q : PortState) : q.Moves g q.goDown where
  queues _ := ⟨by simp [PortState.goDown], by simp [PortState.goDown, PortState.flush], fun _ => by
    simp [PortState.goDown, PortState.flush]⟩
  quiet _ _ := ⟨rfl, rfl, rfl, rfl, by simp [PortState.goDown, PortState.flush], rfl, rfl, rfl, rfl⟩
  reserved r hr := by simp [PortState.goDown] at hr

/-- A Stream Stop keeps at most the item in transmission (R170, R193). -/
theorem PortState.Moves.ofStop (g : PerSection Word32) (q : PortState) :
    q.Moves g { q.answerPause with stream := .none }.flushAtStop := by
  refine (PortState.Moves.ofAnswerPause g q).trans ⟨fun h => ?_, fun h hd => ?_, fun _ => .inl⟩
  · obtain ⟨hr, ht, -⟩ := h
    refine ⟨hr, ?_, fun _ => ?_⟩
    · simp only [PortState.flushAtStop, PortState.flush, List.length_take]
      omega
    · simp only [PortState.flushAtStop, PortState.flush, List.length_take]
      split <;> omega
  · obtain ⟨hreq, hrep, htx, -, htxq, hrest⟩ := h hd
    exact ⟨hreq, hrep, htx, rfl, by simp [PortState.flushAtStop, PortState.flush, htxq], hrest⟩

/-! ## Streams and Read Records of a port that has a request -/

/-- A port whose stream becomes ACTIVE. -/
theorem PortState.Moves.ofActivate {g : PerSection Word32} {q' : PortState} (ring : Ring) (r : Request)
    (h : q.Moves g { q' with stream := .active, requests := q'.requests.tail }) :
    q.Moves g (q'.activate ring r) :=
  (h.trans (.ofRespond g _ _ _ _ _)).trans (.ofRefill g _ ring)

theorem PortState.installStream_kept (q : PortState) (ring : Ring) (r : Request) (choice : StartChoice) :
    (q.installStream ring r choice).link = q.link
      ∧ (q.installStream ring r choice).requests.length ≤ q.requests.length
      ∧ (q.installStream ring r choice).reservation = q.reservation
      ∧ (q.installStream ring r choice).txQueue.length ≤ q.txQueue.length + 1 := by
  unfold PortState.installStream
  dsimp only
  split
  · refine ⟨PortState.overrunAt_link _ _, PortState.overrunAt_requests_length _ _,
      PortState.overrunAt_reservation _ _, ?_⟩
    rw [PortState.overrunAt_txQueue]
    split <;> simp
  · exact ⟨rfl, le_rfl, rfl, Nat.le_succ _⟩

theorem PortState.Moves.ofStart (hreq : q.requests ≠ []) (hs : q.stream = .none) (ring : Ring)
    (r : Request) (choice : StartChoice) :
    q.Moves g ((q.installStream ring r choice).activate ring r) := by
  obtain ⟨hlink, hlen, hres, htx⟩ := q.installStream_kept ring r choice
  refine .ofActivate ring r (.ofRequest hreq hlink (fun h => ?_) fun x hx => .inl (hres ▸ hx))
  have hone := h.2.2 hs
  exact ⟨by have := h.1; simp; omega, by simp [Config.transmitCapacity]; omega, by simp⟩

theorem PortState.Moves.ofResume (hreq : q.requests ≠ []) (ring : Ring) (r : Request) :
    q.Moves g (q.activate ring r) :=
  .ofActivate ring r (.ofRequest hreq rfl
    (fun h => ⟨by have := h.1; simp; omega, h.2.1, by simp⟩) fun _ => .inl)

theorem PortState.answerPause_link (q : PortState) : q.answerPause.link = q.link := by
  unfold PortState.answerPause
  split <;> simp

theorem PortState.Moves.ofResumePausing (hreq : q.requests ≠ []) (ring : Ring) (r : Request) :
    q.Moves g (q.answerPause.activate ring r) := by
  have hpause := PortState.Moves.ofAnswerPause g q
  refine .ofActivate ring r (.ofRequest hreq q.answerPause_link (fun h => ?_) hpause.reserved)
  obtain ⟨hr, ht, -⟩ := hpause.queues h
  exact ⟨by simp; omega, ht, by simp⟩

theorem PortState.Moves.ofPause (hreq : q.requests ≠ []) (tag : Word16) :
    q.Moves g { q with
      stream := .pausing, pendingPause := some tag, requests := q.requests.tail }.drainPause := by
  refine PortState.Moves.trans ?_ (.ofDrainPause g _)
  exact .ofRequest hreq rfl (fun h => ⟨by have := h.1; simp; omega, h.2.1, by simp⟩) fun _ => .inl

theorem PortState.Moves.ofBeginRead (hreq : q.requests ≠ []) (tag : Word16) (records : List RingRecord) :
    q.Moves g (q.beginRead tag records) := by
  unfold PortState.beginRead
  refine .ofRequest hreq (by simp) (fun h => ?_) fun x hx => .inl (by simpa using hx)
  refine ⟨?_, by simpa using h.2.1, by simpa using h.2.2⟩
  exact ((PortState.kick_requests_length _).trans (PortState.readNext_requests_length _)).trans h.1

end

/-! ## Closing and releasing sets -/

/-- A relation that holds of each single change made in closing and releasing sets, and carries over from
one to the next (R64 to R67). -/
structure State.ClosingRel (R : State → State → Prop) : Prop where
  refl : ∀ s, R s s
  trans : ∀ {s t u}, R s t → R t u → R s u
  lanes : ∀ s u, R s { s with lanes := u }
  image : ∀ s c u, R s { s with store := { s.store with installedCal := c, stagedCal := false }, lanes := u }
  offer : ∀ s n, R s (s.offer n)
  handOver : ∀ s x, R s (s.handToResampler x)

section
variable {R : State → State → Prop} (hR : State.ClosingRel R)
include hR

theorem State.ClosingRel.ofNotices (ns : List Notice) (s : State) : R s (s.offerAll ns) := by
  induction ns generalizing s with
  | nil => exact hR.refl s
  | cons n ns ih => exact hR.trans (hR.offer s n) (ih _)

theorem State.ClosingRel.ofChain (xs : List SampleSet) (s : State) : R s (s.releaseChain xs) := by
  induction xs generalizing s with
  | nil => exact hR.refl s
  | cons x xs ih =>
    unfold State.releaseChain
    split
    · exact hR.trans (hR.trans (hR.trans (hR.lanes s _) (hR.ofNotices _ _)) (hR.handOver _ _)) (ih _)
    · exact hR.refl s

theorem State.ClosingRel.ofReady (s : State) : R s s.releaseReady := hR.ofChain _ s

theorem State.ClosingRel.ofInstall (s : State) (c : CalibrationImage) : R s (s.installCalibration c) :=
  hR.trans (hR.image s c _) (hR.ofNotices _ _)

theorem State.ClosingRel.ofFormed (s : State) (k : Word32) : R s (s.closeFormed k) := by
  unfold State.closeFormed
  split
  · exact hR.refl s
  · exact hR.trans (hR.lanes s _) (hR.ofReady _)

theorem State.ClosingRel.ofFormedAll (ks : List Word32) (s : State) : R s (s.closeFormedAll ks) := by
  induction ks generalizing s with
  | nil => exact hR.refl s
  | cons k ks ih =>
    unfold State.closeFormedAll
    split
    · exact hR.trans (hR.ofFormed s k) (ih _)
    · exact ih s

theorem State.ClosingRel.ofPut (s : State) : R s s.putCalibration :=
  hR.trans (hR.ofInstall s _) (hR.ofFormedAll _ _)

theorem State.ClosingRel.ofClose (s : State) (k : Word32) : R s (s.closeSet k) := by
  unfold State.closeSet
  dsimp only
  split
  · exact hR.trans (hR.trans (hR.trans (hR.lanes s _) (hR.ofInstall _ _)) (hR.ofFormed _ k))
      (hR.ofFormedAll _ _)
  · exact hR.trans (hR.lanes s _) (hR.ofFormed _ k)

theorem State.ClosingRel.ofCloses (ks : List Word32) (s : State) : R s (s.closeSets ks) := by
  induction ks generalizing s with
  | nil => exact hR.refl s
  | cons k ks ih =>
    unfold State.closeSets
    split
    · exact hR.trans (hR.ofClose s k) (ih _)
    · exact ih s

theorem State.ClosingRel.ofTake (s : State) (m : Word32) (items : StrobeItems) :
    R s (s.lanesTakeStrobe m items) := by
  unfold State.lanesTakeStrobe
  dsimp only
  refine hR.trans (hR.trans (hR.ofCloses (deadlineStrobes s.store.installedCal.assemblyWindow m s.lanes.sets) s)
    ?_) (hR.lanes _ _)
  split
  · exact hR.trans (hR.lanes _ _) (hR.ofClose _ m)
  · exact hR.lanes _ _

theorem State.ClosingRel.ofFrame (s : State) (l : Lane) (q : Byte) (r : Reading) : R s (s.takeFrame l q r) := by
  unfold State.takeFrame
  dsimp only
  split
  · unfold State.fillSlot
    dsimp only
    split
    · exact hR.trans (hR.lanes s _) (hR.ofClose _ _)
    · exact hR.lanes s _
  · exact hR.lanes s _
  · exact hR.lanes s _

end

end Sys2Proof.Machine
end

section
/-! PROOFS. The ports under every command: the laws of O60 and O51. -/

namespace Sys2Proof.Machine

/-! ## What commands leave of the ports -/

/-- Every port moves from `s` to `t`, with reservations taken under the generations `g`. -/
def State.portsMove (g : PerSection Word32) (s t : State) : Prop :=
  ∀ p, (s.ports.get p).Moves g (t.ports.get p)

section
variable {g : PerSection Word32} {s t u : State} {p : Port}

theorem State.portsMove.ofSame (h : t.ports = s.ports) : State.portsMove g s t :=
  fun p => by rw [h]; exact .refl g _

theorem State.portsMove.trans (h : State.portsMove g s t) (h' : State.portsMove g t u) :
    State.portsMove g s u := fun p => (h p).trans (h' p)

theorem State.portsMove.ofMap (f : PortState → PortState) (hf : ∀ q : PortState, q.Moves g (f q))
    (h : t.ports = s.ports.map f) : State.portsMove g s t :=
  fun p => by rw [h, PerPort.get_map]; exact hf _

theorem State.portsMove.ofModPort {f : PortState → PortState} (h : (s.ports.get p).Moves g (f (s.ports.get p))) :
    State.portsMove g s (s.modPort p f) := by
  intro k
  by_cases hk : k = p
  · rw [hk, State.modPort_get_same]
    exact h
  · rw [State.modPort_get_ne s hk]
    exact .refl g _

theorem State.portsMove.ofFinish (h : t.ports = s.ports) (p : Port) :
    State.portsMove g s (t.finishRequest p) :=
  (State.portsMove.ofSame h).trans (.ofModPort (.ofFinish g _))

theorem State.portsMove.ofAnswer (h : t.ports = s.ports) (p : Port) (r : Request) (c : Completion)
    (fs : List Field) : State.portsMove g s (t.answer p r c fs) :=
  (State.portsMove.ofFinish h p).trans (.ofModPort (.ofRespond g _ _ _ _ _))

theorem State.portsMove.closing (g : PerSection Word32) : State.ClosingRel (State.portsMove g) where
  refl _ := .ofSame rfl
  trans := .trans
  lanes _ _ := .ofSame rfl
  image _ _ _ := .ofSame rfl
  offer _ n := .ofMap _ (fun q => .ofOffer g q n) rfl
  handOver _ _ := .ofSame rfl

theorem State.requests_ne_of_front {code : Nat} {r : Request} (h : s.frontRequest p code = some r) :
    (s.ports.get p).requests ≠ [] := by
  unfold State.frontRequest at h
  split at h
  · cases h
  · split at h
    · next h' => simp [h']
    · cases h

theorem State.serve_portsMove {code n : Nat} {f : Request → State}
    (h : Host.Outcome.next (s.serve p code n f) = (.next t : Host.Outcome State Fault Refusal))
    (hf : ∀ r, (s.ports.get p).requests ≠ [] → State.portsMove g s (f r)) : State.portsMove g s t :=
  State.serve_next (P := State.portsMove g s) h (.ofSame rfl) (fun _ => .ofAnswer rfl _ _ _ _)
    fun r hr _ => hf r (State.requests_ne_of_front hr)

theorem execPulseAccept_portsMove {x : TachId} (h : execPulseAccept x s = .next t) : State.portsMove g s t := by
  cases h
  exact (State.portsMove.ofSame (by rfl)).trans ((State.portsMove.closing g).ofNotices _ _)

theorem State.issueStrobe_portsMove (s : State) (k : Word32) (moment : Nat) :
    State.portsMove g s (s.issueStrobe k moment) := by
  rw [State.issueStrobe_eq]
  exact ((State.portsMove.ofSame (by rfl)).trans ((State.portsMove.closing g).ofNotices _ _)).trans
    ((State.portsMove.closing g).ofTake _ _ _)

theorem execDistanceBaseStrobe_portsMove (h : execDistanceBaseStrobe s = .next t) : State.portsMove g s t := by
  unfold execDistanceBaseStrobe at h
  split at h <;> cases h
  · exact .ofSame rfl
  · exact (State.portsMove.ofSame (by rfl)).trans ((State.portsMove.closing g).ofReady _)

theorem execLaneFrame_portsMove {l : Lane} {bytes : List Byte} (h : execLaneFrame l bytes s = .next t) :
    State.portsMove g s t := by
  unfold execLaneFrame at h
  dsimp only at h
  split at h
  · cases h; exact .ofSame rfl
  · split at h <;> cases h
    · exact .ofSame rfl
    · exact .ofSame rfl
    · exact (State.portsMove.closing g).ofFrame s l _ _

theorem execRingAppend_portsMove (h : execRingAppend s = .next t) : State.portsMove g s t := by
  unfold execRingAppend at h
  split at h
  · cases h; exact .ofSame rfl
  · next w _ =>
    split at h
    · cases h; exact .ofSame rfl
    · next body _ =>
      cases h
      exact .ofMap _ (fun q => .ofRefillActive g q (s.ring.append w s.run.number body))
        (State.tellWriter_kept _ w).2.1

theorem execTransmitFrameEnd_portsMove (h : execTransmitFrameEnd p s = .next t) :
    s.restartsTo t ∨ State.portsMove g s t := by
  unfold execTransmitFrameEnd at h
  split at h
  · cases h; exact .inr (.ofSame rfl)
  · split at h
    · split at h
      · exact .inl (.inr ⟨_, (Host.Outcome.next.inj h).symm⟩)
      · cases h; exact .inr (.ofModPort (.ofReplySent g _))
    · cases h; exact .inr (.ofModPort (.ofStreamSent g _ _))

theorem execLossOfSignal_portsMove (h : execLossOfSignal p s = .next t) :
    s.restartsTo t ∨ State.portsMove g s t := by
  unfold execLossOfSignal at h
  split at h
  · cases h; exact .inr (.ofSame rfl)
  · dsimp only at h
    split at h
    · exact .inl (.inr ⟨_, (Host.Outcome.next.inj h).symm⟩)
    · cases h; exact .inr (.ofModPort (.ofGoDown g _))

theorem execUnknownRequest_portsMove (h : execUnknownRequest p s = .next t) : State.portsMove g s t := by
  unfold execUnknownRequest at h
  split at h
  · cases h; exact .ofSame rfl
  · split at h
    · cases h; exact .ofSame rfl
    · split at h <;> cases h
      · exact .ofSame rfl
      · exact .ofAnswer rfl _ _ _ _

theorem execResetPart_portsMove (h : execResetPart p s = .next t) :
    s.restartsTo t ∨ State.portsMove g s t := by
  refine State.serve_next (P := fun t => s.restartsTo t ∨ State.portsMove g s t) h (.inr (.ofSame rfl))
    (fun _ => .inr (.ofAnswer rfl _ _ _ _)) fun r _ _ => ?_
  split
  · unfold State.acceptReset
    split
    · exact .inr ((State.portsMove.ofSame (t := { s with resetPending := some p }) rfl).trans
        (.ofModPort (.ofRespond g _ _ _ _ _)))
    · exact .inl (.inr ⟨_, rfl⟩)
  · exact .inr (.ofAnswer rfl _ _ _ _)

/-! ### Requests on settings -/

theorem execReadSettings_portsMove (h : execReadSettings p s = .next t) :
    State.portsMove s.store.generations s t := by
  refine State.serve_portsMove h fun r hreq => ?_
  dsimp only
  split
  · exact .ofAnswer rfl _ _ _ _
  · next sec _ =>
    refine State.portsMove.trans ?_ (.ofAnswer rfl p r .ok _)
    refine .ofModPort (.ofRequest hreq rfl id fun x hx => .inr ?_)
    cases hx
    rfl

theorem execAwaitChange_portsMove (h : execAwaitChange p s = .next t) : State.portsMove g s t := by
  refine State.serve_portsMove h fun r hreq => ?_
  dsimp only
  split
  · exact .ofAnswer rfl _ _ _ _
  · split
    · exact .ofAnswer rfl _ _ _ _
    · split
      · exact .ofAnswer rfl _ _ _ _
      · exact State.portsMove.trans (.ofModPort (.ofRequest hreq rfl id fun _ => .inl)) (.ofFinish rfl p)

theorem State.handImage_portsMove (s : State) (sec : Section) (before : Images) :
    State.portsMove g s (s.handImage sec before) := by
  unfold State.handImage
  split
  · exact .ofSame rfl
  · exact .ofSame rfl
  · split
    · exact .ofSame rfl
    · exact (State.portsMove.closing g).ofPut s
  all_goals split <;> exact .ofSame rfl

theorem State.commitImage_portsMove (s : State) (sec : Section) (v : List Int) :
    State.portsMove g { s with ports := s.ports.map (fun q => q.dropReservation sec) } (s.commitImage sec v) :=
  ((State.portsMove.ofSame (by rfl)).trans (State.handImage_portsMove _ sec s.store.committed)).trans
    (.ofMap _ (fun q => .ofAnswerAwait g q sec _) rfl)

theorem execCommitSettings_portsMove (h : execCommitSettings p s = .next t) : State.portsMove g s t := by
  obtain rfl | ⟨r, c, fields, rfl⟩ | ⟨r, sec, v, -, -, rfl⟩ := execCommitSettings_cases h
  · exact .ofSame rfl
  · exact .ofAnswer rfl _ _ _ _
  · exact ((State.portsMove.ofMap _ (fun q => .ofDropReservation g q sec) rfl).trans
      (s.commitImage_portsMove sec v)).trans (.ofAnswer rfl p r .ok _)

theorem execSetPortOptions_portsMove (h : execSetPortOptions p s = .next t) : State.portsMove g s t := by
  refine State.serve_portsMove h fun r _ => ?_
  split
  · exact .ofAnswer rfl _ _ _ _
  · exact State.portsMove.trans (.ofModPort ⟨id, id, fun _ => .inl⟩) (.ofAnswer rfl p r .ok _)

/-! ### Requests on streams and records -/

theorem execStreamStart_portsMove (h : execStreamStart p s = .next t) : State.portsMove g s t := by
  refine State.serve_portsMove h fun r hreq => ?_
  dsimp only
  split
  · exact .ofAnswer rfl _ _ _ _
  · next hs =>
    split
    · exact .ofAnswer rfl _ _ _ _
    · split
      · exact .ofAnswer rfl _ _ _ _
      · split
        · exact .ofAnswer rfl _ _ _ _
        · exact .ofModPort (.ofStart hreq (not_not.mp hs) _ _ _)

theorem execStreamPause_portsMove (h : execStreamPause p s = .next t) : State.portsMove g s t := by
  refine State.serve_portsMove h fun r hreq => ?_
  split
  · exact .ofAnswer rfl _ _ _ _
  · exact .ofAnswer rfl _ _ _ _
  · exact .ofAnswer rfl _ _ _ _
  · exact .ofModPort (.ofPause hreq _)

theorem execStreamResume_portsMove (h : execStreamResume p s = .next t) : State.portsMove g s t := by
  refine State.serve_portsMove h fun r hreq => ?_
  split
  · exact .ofAnswer rfl _ _ _ _
  · exact .ofAnswer rfl _ _ _ _
  · exact .ofModPort (.ofResume hreq _ _)
  · exact .ofModPort (.ofResumePausing hreq _ _)

theorem execStreamStop_portsMove (h : execStreamStop p s = .next t) : State.portsMove g s t := by
  refine State.serve_portsMove h fun r _ => ?_
  split
  · exact .ofAnswer rfl _ _ _ _
  all_goals exact State.portsMove.trans (.ofModPort (.ofStop g _)) (.ofAnswer rfl p r .ok _)

theorem execReadRecords_portsMove (h : execReadRecords p s = .next t) : State.portsMove g s t := by
  refine State.serve_portsMove h fun r hreq => ?_
  dsimp only
  split
  · exact .ofAnswer rfl _ _ _ _
  · split
    · exact .ofModPort (.ofBeginRead hreq _ _)
    · split <;> exact .ofAnswer rfl _ _ _ _

/-! ### Requests on the run, on lanes and the others that answer alone -/

theorem execRunStart_portsMove (h : execRunStart p s = .next t) : State.portsMove g s t := by
  refine State.serve_portsMove h fun r _ => ?_
  dsimp only
  split
  · exact .ofAnswer rfl _ _ _ _
  · split
    · exact .ofAnswer rfl _ _ _ _
    · exact .ofFinish rfl p

theorem execRunPause_portsMove (h : execRunPause p s = .next t) : State.portsMove g s t := by
  refine State.serve_portsMove h fun r _ => ?_
  dsimp only
  split
  · exact .ofAnswer rfl _ _ _ _
  · exact .ofFinish rfl p

theorem execRunResume_portsMove (h : execRunResume p s = .next t) : State.portsMove g s t := by
  refine State.serve_portsMove h fun r _ => ?_
  dsimp only
  split
  · exact .ofAnswer rfl _ _ _ _
  · exact .ofFinish rfl p

theorem execRunEnd_portsMove (h : execRunEnd p s = .next t) : State.portsMove g s t := by
  refine State.serve_portsMove h fun r _ => ?_
  dsimp only
  split
  · exact .ofAnswer rfl _ _ _ _
  · exact .ofFinish rfl p

theorem execRunOperationComplete_portsMove (h : execRunOperationComplete s = .next t) :
    State.portsMove g s t := by
  unfold execRunOperationComplete at h
  split at h
  · cases h; exact .ofSame rfl
  · next o _ =>
    split at h <;> cases h
    · have hsettle : (s.settleRun o.what).ports = s.ports := by
        unfold State.settleRun
        split <;> rfl
      have hrespond := State.portsMove.ofModPort (s := s.settleRun o.what) (p := o.port)
        (f := fun q => q.respond o.what.code o.tag .ok (s.completionFields o.what)) (.ofRespond g _ _ _ _ _)
      exact ((State.portsMove.ofSame hsettle).trans hrespond).trans
        (.ofMap _ (fun q => .ofOffer g q _) rfl)
    · exact .ofSame rfl

theorem execPositionFix_portsMove (h : execPositionFix p s = .next t) : State.portsMove g s t := by
  refine State.serve_portsMove h fun r _ => ?_
  dsimp only
  split; · exact .ofAnswer rfl _ _ _ _
  split; · exact .ofAnswer rfl _ _ _ _
  split; · exact .ofAnswer rfl _ _ _ _
  split; · exact .ofAnswer rfl _ _ _ _
  split; · exact .ofAnswer rfl _ _ _ _
  split <;> exact .ofAnswer rfl _ _ _ _

theorem execClassChange_portsMove (h : execClassChange p s = .next t) : State.portsMove g s t := by
  refine State.serve_portsMove h fun r _ => ?_
  dsimp only
  split; · exact .ofAnswer rfl _ _ _ _
  split; · exact .ofAnswer rfl _ _ _ _
  split; · exact .ofAnswer rfl _ _ _ _
  split <;> exact .ofAnswer rfl _ _ _ _

theorem execManualMark_portsMove (h : execManualMark p s = .next t) : State.portsMove g s t := by
  refine State.serve_portsMove h fun r _ => ?_
  dsimp only
  split; · exact .ofAnswer rfl _ _ _ _
  split; · exact .ofAnswer rfl _ _ _ _
  split; · exact .ofAnswer rfl _ _ _ _
  split; · exact .ofAnswer rfl _ _ _ _
  split; · exact .ofAnswer rfl _ _ _ _
  split <;> exact .ofAnswer rfl _ _ _ _

theorem execReadLaneHealth_portsMove (h : execReadLaneHealth p s = .next t) : State.portsMove g s t := by
  refine State.serve_portsMove h fun r _ => ?_
  split <;> exact .ofAnswer rfl _ _ _ _

theorem execClearLaneFlags_portsMove (h : execClearLaneFlags p s = .next t) : State.portsMove g s t := by
  refine State.serve_portsMove h fun r _ => ?_
  dsimp only
  split <;> exact .ofAnswer rfl _ _ _ _

theorem execReadLaneSample_portsMove (h : execReadLaneSample p s = .next t) : State.portsMove g s t := by
  refine State.serve_portsMove h fun r _ => ?_
  split
  · split <;> exact .ofAnswer rfl _ _ _ _
  · exact .ofAnswer rfl _ _ _ _

end

/-- What every command leaves of the ports: they are those of a part started again, or each has moved from
what it was. -/
theorem exec_portsMove {c : Instr} {s t : State} (h : exec c s = .next t) :
    s.restartsTo t ∨ State.portsMove s.store.generations s t := by
  cases c with
  | resetLine => exact .inl (.inl (Host.Outcome.next.inj h).symm)
  | resetPart p => exact execResetPart_portsMove h
  | lossOfSignal p => exact execLossOfSignal_portsMove h
  | transmitFrameEnd p => exact execTransmitFrameEnd_portsMove h
  | pulseAccept x => exact .inr (execPulseAccept_portsMove h)
  | sampleStrobe => cases h; exact .inr (s.issueStrobe_portsMove _ _)
  | distanceBaseStrobe => exact .inr (execDistanceBaseStrobe_portsMove h)
  | laneFrame l bytes => exact .inr (execLaneFrame_portsMove h)
  | ringAppend => exact .inr (execRingAppend_portsMove h)
  | linkFrame p bytes => cases h; exact .inr (.ofModPort (.ofTakeFrame _ _ _))
  | unknownRequest p => exact .inr (execUnknownRequest_portsMove h)
  | identify p => exact .inr (State.serve_portsMove h fun _ _ => .ofAnswer rfl _ _ _ _)
  | readStatus p => exact .inr (State.serve_portsMove h fun _ _ => .ofAnswer rfl _ _ _ _)
  | setPortOptions p => exact .inr (execSetPortOptions_portsMove h)
  | readSettings p => exact .inr (execReadSettings_portsMove h)
  | commitSettings p => exact .inr (execCommitSettings_portsMove h)
  | awaitChange p => exact .inr (execAwaitChange_portsMove h)
  | runStart p => exact .inr (execRunStart_portsMove h)
  | runPause p => exact .inr (execRunPause_portsMove h)
  | runResume p => exact .inr (execRunResume_portsMove h)
  | runEnd p => exact .inr (execRunEnd_portsMove h)
  | runOperationComplete => exact .inr (execRunOperationComplete_portsMove h)
  | positionFix p => exact .inr (execPositionFix_portsMove h)
  | classChange p => exact .inr (execClassChange_portsMove h)
  | manualMark p => exact .inr (execManualMark_portsMove h)
  | streamStart p => exact .inr (execStreamStart_portsMove h)
  | streamPause p => exact .inr (execStreamPause_portsMove h)
  | streamResume p => exact .inr (execStreamResume_portsMove h)
  | streamStop p => exact .inr (execStreamStop_portsMove h)
  | readRecords p => exact .inr (execReadRecords_portsMove h)
  | readLaneHealth p => exact .inr (execReadLaneHealth_portsMove h)
  | clearLaneFlags p => exact .inr (execClearLaneFlags_portsMove h)
  | readLaneSample p => exact .inr (execReadLaneSample_portsMove h)
  | _ =>
    obtain ⟨hc, -⟩ | hm := exec_restarts_or_mayBecome h
    · cases hc
    · repeat obtain ⟨_, hm⟩ := hm
      exact .inr (.ofSame rfl)

/-! ## The queues of every port (R165, R187, R189) -/

/-- After a restart every port is as after a reset, but for notices offered. -/
theorem State.restartsTo.portsMove {s t : State} (h : s.restartsTo t) (g : PerSection Word32) :
    ∃ links : PerPort LinkState, ∀ p, (resetPort (links.get p)).Moves g (t.ports.get p) := by
  have hports (store : Store) (links : PerPort LinkState) (p : Port) :
      (resetPort (links.get p)).Moves g ((restarted s.pending store links).ports.get p) := by
    have := State.issueStrobe_portsMove (g := g) (cleared s.pending store links) 0 0 p
    rwa [show (cleared s.pending store links).ports = links.map resetPort from rfl, PerPort.get_map] at this
  obtain h | ⟨links, h⟩ := h
  · exact ⟨.all .down, fun p => h ▸ hports _ _ p⟩
  · exact ⟨links, fun p => h ▸ hports _ _ p⟩

theorem resetPort_queuesOk (l : LinkState) : (resetPort l).queuesOk :=
  ⟨Nat.zero_le _, Nat.zero_le _, fun _ => Nat.zero_le _⟩

theorem resetPort_quietWhenDown (l : LinkState) : (resetPort l).quietWhenDown :=
  fun _ => ⟨rfl, rfl, rfl, rfl, rfl, rfl, rfl, rfl, rfl⟩

theorem exec_keeps_queueLaw {c : Instr} {s t : State} (hs : s.QueueLaw) (h : exec c s = .next t) :
    t.QueueLaw := by
  obtain h | h := exec_portsMove h
  · obtain ⟨links, h⟩ := h.portsMove s.store.generations
    exact fun p => (h p).queues (resetPort_queuesOk _)
  · exact fun p => (h p).queues (hs p)

theorem exec_keeps_downLaw {c : Instr} {s t : State} (hs : s.DownLaw) (h : exec c s = .next t) :
    t.DownLaw := by
  obtain h | h := exec_portsMove h
  · obtain ⟨links, h⟩ := h.portsMove s.store.generations
    exact fun p => (h p).quiet (resetPort_quietWhenDown _)
  · exact fun p => (h p).quiet (hs p)

/-- Settles O60: every operation on a port keeps its queues bounded and a DOWN port empty. -/
theorem portQueuesStayBounded : Obligations.PortQueuesStayBounded := by
  unfold Obligations.PortQueuesStayBounded
  intro s t h
  exact ⟨fun hs => step_keeps (P := State.QueueLaw) (fun _ _ hs => hs)
      (fun _ _ _ hs h => exec_keeps_queueLaw hs h) hs h,
    fun hs => step_keeps (P := State.DownLaw) (fun _ _ hs => hs)
      (fun _ _ _ hs h => exec_keeps_downLaw hs h) hs h⟩

end Sys2Proof.Machine
end

section
/-! PROOFS. Shared settings (11): the laws of the reservations and of the ACCESS permission. -/

namespace Sys2Proof.Machine

/-- A commit raises the section's generation, and changes no other (R180). -/
theorem State.commitImage_generations (s : State) (sec : Section) (v : List Int) :
    (s.commitImage sec v).store.generations
      = s.store.generations.set sec (s.store.generations.get sec + 1) := by
  obtain ⟨_, _, _, _, _, _, _, _, _, _, m, hs⟩ := State.handImage_eq { s with
    store := s.store.commit sec v, ports := s.ports.map (fun q => q.dropReservation sec) } sec
    s.store.committed
  unfold State.commitImage
  dsimp only at hs ⊢
  rw [hs]
  rfl

/-- Only a restart and a commit touch the committed images and the generations (R180, R198, R199). -/
theorem exec_committed {c : Instr} {s t : State} (h : exec c s = .next t) :
    s.restartsTo t ∨ (∃ p, c = .commitSettings p)
      ∨ (t.store.committed = s.store.committed ∧ t.store.generations = s.store.generations) := by
  obtain ⟨-, h⟩ | hm := exec_restarts_or_mayBecome h
  · exact .inl h
  · cases c with
    | resetLine => exact hm.elim
    | commitSettings p => exact .inr (.inl ⟨p, rfl⟩)
    | _ =>
      repeat obtain ⟨_, hm⟩ := hm
      exact .inr (.inr ⟨rfl, rfl⟩)

/-! ## Reservations (R178) -/

/-- A reservation that a commit on a section leaves was held before, on another section (R178). -/
theorem PortState.dropReservation_eq_some {q : PortState} {sec : Section} {r : Reservation}
    (h : (q.dropReservation sec).reservation = some r) : q.reservation = some r ∧ r.sec ≠ sec := by
  unfold PortState.dropReservation at h
  split at h
  · next hn => simp [hn] at h
  · next r' hr' =>
    split at h
    · simp at h
    · next hne =>
      obtain rfl : r' = r := by simpa [hr'] using h
      exact ⟨hr', hne⟩

theorem exec_keeps_reservationLaw {c : Instr} {s t : State} (hs : s.ReservationLaw)
    (h : exec c s = .next t) : t.ReservationLaw := by
  obtain hr | ⟨p, rfl⟩ | ⟨-, hgen⟩ := exec_committed h
  · obtain ⟨links, hports⟩ := hr.portsMove t.store.generations
    intro p r hres
    exact ((hports p).reserved r hres).resolve_left (by simp [resetPort])
  · obtain rfl | ⟨r, c, fields, rfl⟩ | ⟨r, sec, v, -, -, rfl⟩ := execCommitSettings_cases h
    · exact hs
    · intro k x hx
      have hmove := State.portsMove.ofAnswer (g := s.store.generations) (s := s) (t := s) rfl p r c fields
      exact ((hmove k).reserved x hx).elim (hs k x) id
    · intro k x hx
      set g := ((s.commitImage sec v).answerOk p r
        ((s.commitImage sec v).store.generationFields sec)).store.generations with hg
      have hgen : g = s.store.generations.set sec (s.store.generations.get sec + 1) :=
        s.commitImage_generations sec v
      have hmove := (s.commitImage_portsMove (g := g) sec v).trans
        (.ofAnswer (t := s.commitImage sec v) rfl p r .ok ((s.commitImage sec v).store.generationFields sec))
      refine ((hmove k).reserved x hx).elim (fun hdrop => ?_) id
      rw [PerPort.get_map] at hdrop
      obtain ⟨hheld, hne⟩ := PortState.dropReservation_eq_some hdrop
      rw [hgen, PerSection.get_set_ne _ hne]
      exact hs k x hheld
  · obtain hr | hports := exec_portsMove h
    · obtain ⟨links, hports⟩ := hr.portsMove t.store.generations
      intro p r hres
      exact ((hports p).reserved r hres).resolve_left (by simp [resetPort])
    · intro p r hres
      rw [hgen]
      exact ((hports p).reserved r hres).elim (hs p r) id

/-! ## ACCESS (R182) -/

/-- Some port holds commit permission for ACCESS in an ACCESS image. -/
theorem State.accessLaw_iff (s : State) :
    s.AccessLaw ↔ ∃ p, holdsAccess s.store.committed.access p = true := Iff.rfl

/-- An ACCESS image that is committed leaves some port the permission (R179, R182). -/
theorem State.holdsAccess_of_commitRefusal {s : State} {p : Port} {v : List Int}
    (h : s.commitRefusal p .access v = none) : ∃ k, holdsAccess (accessOf v) k = true := by
  unfold State.commitRefusal at h
  dsimp only at h
  iterate 4 rw [ite_eq_iff, or_iff_right (by simp)] at h; replace h := h.2
  split at h
  · cases h
  · rw [ite_eq_iff, or_iff_right (by simp)] at h
    have hsome := h.1
    simp only [true_and, Bool.not_eq_false, Bool.or_eq_true] at hsome
    obtain (h0 | h1) | h2 := hsome
    · exact ⟨.p0, h0⟩
    · exact ⟨.p1, h1⟩
    · exact ⟨.p2, h2⟩

theorem exec_keeps_accessLaw {c : Instr} {s t : State} (hs : s.AccessLaw) (h : exec c s = .next t) :
    t.AccessLaw := by
  obtain (h | ⟨links, h⟩) | ⟨p, rfl⟩ | ⟨hcom, -⟩ := exec_committed h
  · rw [State.accessLaw_iff, h, restarted_committed]
    exact ⟨.p0, by decide⟩
  · rw [State.accessLaw_iff, h, restarted_committed]
    exact hs
  · obtain rfl | ⟨r, c, fields, rfl⟩ | ⟨r, sec, v, hpass, -, rfl⟩ := execCommitSettings_cases h
    · exact hs
    · exact hs
    · rw [State.accessLaw_iff, State.answerOk, State.answer_store, State.commitImage_committed]
      cases sec with
      | access => exact State.holdsAccess_of_commitRefusal hpass
      | calibration | sampling | odometry | limits | marking => exact hs
  · rw [State.accessLaw_iff, hcom]
    exact hs

/-- Settles O51: a commit drops the reservations on its section, and an ACCESS image that leaves no port the
permission is refused. -/
theorem reservationsAndAccessStayGood : Obligations.ReservationsAndAccessStayGood := by
  unfold Obligations.ReservationsAndAccessStayGood
  intro s t h
  exact ⟨fun hs => step_keeps (P := State.ReservationLaw) (fun _ _ hs => hs)
      (fun _ _ _ hs h => exec_keeps_reservationLaw hs h) hs h,
    fun hs => step_keeps (P := State.AccessLaw) (fun _ _ hs => hs)
      (fun _ _ _ hs h => exec_keeps_accessLaw hs h) hs h⟩

end Sys2Proof.Machine
end

section
/-! PROOFS. The record ring and the append port (10.1, 10.2), and the channels of POINT records (5.5): what
every command does to the records waiting, and the laws of R161, R163 and R85. -/

namespace Sys2Proof.Machine

/-! ## Records handed on -/

/-- A record of another kind than POINT. -/
def Record.notPoint (b : Record) : Prop := ∀ r, b ≠ .point r

theorem Record.notPoint.channelsOk {b : Record} (h : b.notPoint) : b.channelsOk := by
  cases b with
  | point r => exact absurd rfl (h r)
  | _ => trivial

/-- From `s` to `t` every writer keeps the records it has waiting, and hands on others behind them; those of
the exceedance unit, the marking unit and run control are no POINT records (R163). -/
structure State.handsOn (s t : State) : Prop where
  geo : ∃ gs, t.geo.out = s.geo.out ++ gs
  exc : ∃ es, t.exc.out = s.exc.out ++ es ∧ ∀ b ∈ es, b.notPoint
  marking : ∃ ms, t.marking.out = s.marking.out ++ ms ∧ ∀ b ∈ ms, b.notPoint
  base : ∃ bs, t.base.out = s.base.out ++ bs
  run : ∃ rs, t.run.out = s.run.out ++ rs ∧ ∀ b ∈ rs, b.notPoint

/-- `t` has the records waiting of `u`. -/
def State.sameOuts (t u : State) : Prop :=
  t.geo.out = u.geo.out ∧ t.exc.out = u.exc.out ∧ t.marking.out = u.marking.out ∧ t.base.out = u.base.out
    ∧ t.run.out = u.run.out

theorem exists_append_same {α : Type} {P : α → Prop} {a b : List α} (h : b = a) :
    ∃ xs, b = a ++ xs ∧ ∀ x ∈ xs, P x := ⟨[], by simp [h], by simp⟩

theorem State.handsOn.ofSame {s t : State} (h : t.sameOuts s) : s.handsOn t := by
  obtain ⟨hg, he, hm, hb, hr⟩ := h
  exact ⟨⟨[], by simp [hg]⟩, exists_append_same he, exists_append_same hm, ⟨[], by simp [hb]⟩,
    exists_append_same hr⟩

/-- A writer that has a record waiting still has it once others are handed on. -/
theorem State.handsOn.waiting {s t : State} (h : s.handsOn t) (w : Writer) (hw : s.waiting w ≠ none) :
    t.waiting w ≠ none := by
  obtain ⟨⟨gs, hg⟩, ⟨es, he, -⟩, ⟨ms, hm, -⟩, ⟨bs, hb⟩, ⟨rs, hr, -⟩⟩ := h
  cases w with
  | geometry => simp_all [State.waiting]
  | exceedance => simp_all [State.waiting]
  | marking => simp_all [State.waiting]
  | runControl => simp_all [State.waiting]
  | base =>
    simp only [State.waiting, DistanceBase.waiting] at hw ⊢
    rw [hb]
    cases hout : s.base.out with
    | nil => simp [hout] at hw
    | cons x xs => simpa [hout] using hw

theorem State.sameOuts.waiting {t u : State} (h : t.sameOuts u) (w : Writer) : t.waiting w = u.waiting w := by
  obtain ⟨hg, he, hm, hb, hr⟩ := h
  cases w <;> simp [State.waiting, DistanceBase.waiting, hg, he, hm, hb, hr]

/-! ### The exceedance unit and the marking unit -/

/-- From one tally to another the records handed on are kept, with others behind them that are no POINT
records, and the marking unit has the same records waiting. -/
def Tally.handsOn (y y' : Tally) : Prop :=
  (∃ es, y'.out = y.out ++ es ∧ ∀ b ∈ es, b.notPoint) ∧ y'.marking.out = y.marking.out

theorem Tally.handsOn.trans {y y' y'' : Tally} (h : y.handsOn y') (h' : y'.handsOn y'') : y.handsOn y'' := by
  obtain ⟨⟨es, ho, hes⟩, hm⟩ := h
  obtain ⟨⟨es', ho', hes'⟩, hm'⟩ := h'
  refine ⟨⟨es ++ es', by rw [ho', ho, List.append_assoc], fun b hb => ?_⟩, hm'.trans hm⟩
  exact (List.mem_append.mp hb).elim (hes b) (hes' b)

theorem Tally.handsOn.ofGrows {y y' : Tally} (h : y.grows y') (hm : y'.marking.out = y.marking.out) :
    y.handsOn y' := by
  refine ⟨?_, hm⟩
  obtain ⟨-, h | ⟨u, h⟩⟩ | ⟨-, r, -, h⟩ := h
  · exact ⟨[], by simp [h], by simp⟩
  · exact ⟨_, h, by simp [Record.notPoint]⟩
  · exact ⟨_, h, by simp [Record.notPoint]⟩

theorem MarkingUnit.decideMark_out (u : MarkingUnit) (mk : MarkingImage) (t : Int) (p : Nat)
    (src : MarkSource) : (u.decideMark mk t p src).1.out = u.out := by
  obtain ⟨-, h⟩ | ⟨-, -, h⟩ | ⟨-, -, -, h⟩ | ⟨-, -, -, -, h⟩ | ⟨-, -, -, -, h⟩ :=
    u.decideMark_cases mk t p src <;> rw [h]

theorem judge_handsOn (x : Judging) (c : Nat) (e : Sense) (t : Tracker) (y : Tally) :
    y.handsOn (judge x c e t y).2 := by
  refine .ofGrows (judge_grows x c e t y) ?_
  obtain ⟨v, g, h, -⟩ | ⟨g, why, h⟩ | ⟨k, h, -⟩ := judge_cases x c e t y
  · have hurgent : (applyUrgent x c e v g y).2.marking = y.marking := by
      obtain ⟨-, -, h⟩ | ⟨-, h⟩ := applyUrgent_cases x c e v g y <;> rw [h]
    rw [h, applyBoth, ← hurgent]
    obtain ⟨-, -, h⟩ | ⟨-, h⟩ :=
      applyMark_cases x c e (applyUrgent x c e v g y).1 (applyUrgent x c e v g y).2 <;> rw [h]
    exact MarkingUnit.decideMark_out ..
  · rw [h]
    exact congrArg MarkingUnit.out (closeExceedance_kept ..).1
  · rw [h]

theorem truncateTracker_handsOn (l : LimitsImage) (sam : SamplingImage) (why : Closing) (c : Nat) (e : Sense)
    (t : Tracker) (y : Tally) : y.handsOn (truncateTracker l sam why c e t y).2 :=
  .ofGrows (truncateTracker_grows ..) (congrArg MarkingUnit.out (truncateTracker_marking ..))

/-- What trackers acting in turn hand on. -/
theorem State.actFrom_handsOn {s : State} {act : Nat → Tracker → Tally → Tracker × Tally}
    (hact : ∀ i t (y : Tally), y.handsOn (act i t y).2) (next : Nat) (rest : Nat → Turn) :
    s.handsOn (s.actFrom act next rest) := by
  have htally := actInTurn_tally (Q := (s.exc.tally s.marking).handsOn)
    (fun i t y _ hy => hy.trans (hact i t y)) next (s.exc.trackers.drop next)
    ⟨exists_append_same rfl, rfl⟩
  exact ⟨⟨[], by simp [State.actFrom]⟩, htally.1, exists_append_same htally.2,
    ⟨[], by simp [State.actFrom]⟩, exists_append_same rfl⟩

theorem State.handsOn.trans {s t u : State} (h : s.handsOn t) (h' : t.handsOn u) : s.handsOn u := by
  obtain ⟨⟨gs, hg⟩, ⟨es, he, hes⟩, ⟨ms, hm, hms⟩, ⟨bs, hb⟩, ⟨rs, hr, hrs⟩⟩ := h
  obtain ⟨⟨gs', hg'⟩, ⟨es', he', hes'⟩, ⟨ms', hm', hms'⟩, ⟨bs', hb'⟩, ⟨rs', hr', hrs'⟩⟩ := h'
  exact ⟨⟨gs ++ gs', by simp [hg', hg]⟩,
    ⟨es ++ es', by simp [he', he], fun b h => (List.mem_append.mp h).elim (hes b) (hes' b)⟩,
    ⟨ms ++ ms', by simp [hm', hm], fun b h => (List.mem_append.mp h).elim (hms b) (hms' b)⟩,
    ⟨bs ++ bs', by simp [hb', hb]⟩,
    ⟨rs ++ rs', by simp [hr', hr], fun b h => (List.mem_append.mp h).elim (hrs b) (hrs' b)⟩⟩

theorem State.truncateFrom_handsOn (s : State) (cause : TruncationCause) (closed next : Nat) :
    s.handsOn (s.truncateFrom cause closed next) := by
  have hact := State.actFrom_handsOn (s := s)
    (act := fun i => truncateTracker s.store.installedLim s.store.committed.sampling cause.closing
      (trackerChannel i) (trackerSense i))
    (fun _ _ _ => truncateTracker_handsOn ..) next (.truncation cause closed)
  unfold State.truncateFrom
  dsimp only
  split
  · exact hact
  · exact hact.trans (.ofSame ⟨rfl, rfl, rfl, rfl, rfl⟩)

theorem ExceedanceUnit.applyClass_handsOn (u : ExceedanceUnit) (r : PointRecord) :
    ∃ es, (u.applyClass r).out = u.out ++ es ∧ ∀ b ∈ es, b.notPoint := by
  unfold ExceedanceUnit.applyClass
  split
  · exact exists_append_same rfl
  · split
    · exact ⟨_, rfl, by simp [classRecord, Record.notPoint]⟩
    · exact exists_append_same rfl

theorem State.evaluate_handsOn (s : State) (r : PointRecord) (rest : List EvalItem) :
    s.handsOn (s.evaluate r rest) := by
  have hcls := ExceedanceUnit.applyClass_handsOn { s.exc with evalList := rest, evaluated := r.point } r
  cases hr : r.paused with
  | true =>
    rw [s.evaluate_of_paused rest hr]
    exact ⟨⟨[], by simp⟩, hcls, exists_append_same rfl, ⟨[], by simp⟩, exists_append_same rfl⟩
  | false =>
    rw [s.evaluate_of_not_paused rest hr]
    refine State.handsOn.trans ?_ (State.actFrom_handsOn (fun _ _ _ => judge_handsOn ..) 0 _)
    exact ⟨⟨[], by simp⟩, hcls, exists_append_same rfl, ⟨[], by simp⟩, exists_append_same rfl⟩

theorem State.goOn_handsOn (s : State) : s.handsOn s.goOn := by
  unfold State.goOn
  split
  · exact .ofSame ⟨rfl, rfl, rfl, rfl, rfl⟩
  · exact State.actFrom_handsOn (fun _ _ _ => judge_handsOn ..) _ _
  · exact s.truncateFrom_handsOn _ _ _

/-! ### The geometry unit -/

theorem GeometryUnit.writeAll_out (sam : SamplingImage) (cls : Nat → Nat) (xs : List WindowSample)
    (g : GeometryUnit) : ∃ gs, (g.writeAll sam cls xs).out = g.out ++ gs := by
  induction xs generalizing g with
  | nil => exact ⟨[], by simp [GeometryUnit.writeAll]⟩
  | cons x xs ih =>
    obtain ⟨gs, h⟩ := ih (g.write sam cls true x)
    exact ⟨_ :: gs, h.trans (List.append_assoc _ _ _)⟩

theorem GeometryUnit.pause_out (g : GeometryUnit) (sam : SamplingImage) (cls : Nat → Nat) :
    ∃ gs, (g.pause sam cls).out = g.out ++ gs := by
  unfold GeometryUnit.pause
  split <;> exact GeometryUnit.writeAll_out sam cls _ g

theorem GeometryUnit.endRun_out (g : GeometryUnit) (sam : SamplingImage) (cls : Nat → Nat) :
    ∃ gs, (g.endRun sam cls).out = g.out ++ gs := by
  unfold GeometryUnit.endRun
  split
  · exact ⟨[], by simp⟩
  · split
    · dsimp only
      split
      · exact g.pause_out sam cls
      · split <;> exact ⟨[], (List.append_nil _).symm⟩
    · exact ⟨[], by simp⟩

theorem GeometryUnit.takeSample_out (g : GeometryUnit) (c : CalibrationImage) (sam : SamplingImage)
    (cls : Nat → Nat) (x : SpatialSample) : ∃ gs, (g.takeSample c sam cls x).out = g.out ++ gs := by
  unfold GeometryUnit.takeSample
  split
  · unfold GeometryUnit.emit
    split
    · split
      · exact ⟨_, rfl⟩
      · exact ⟨[], (List.append_nil _).symm⟩
    · exact ⟨[], (List.append_nil _).symm⟩
  · exact ⟨_, rfl⟩

/-! ## What a command does to the records waiting and to the ring -/

/-- The states that a command can leave in a state `s`, as far as the records waiting and the ring go. -/
inductive State.RecordStep (s t : State) : Prop where
  | reset (hw : ∀ w, t.waiting w = none) (ho : t.geo.out = [] ∧ t.exc.out = [] ∧ t.marking.out = [] ∧ t.run.out = [])
      (hr : t.ring = resetRing)
  | kept (h : t.sameOuts s) (hr : t.ring = s.ring)
  /-- Records are handed on, and the append port grants one where none was granted. -/
  | handed (u : State) (h : s.handsOn u) (hu : u.ring = s.ring) (ht : t.sameOuts u) (hr : t.ring = u.grant.ring)
  /-- The append of a record waiting, and the grant of the next. -/
  | appended (w : Writer) (body : Record) (hw : s.waiting w = some body) (u : State)
      (hu : u = State.tellWriter { s with
        ring := s.ring.append w s.run.number body
        ports := s.ports.map (fun q => q.refillActive (s.ring.append w s.run.number body)) } w)
      (ht : t = u.grant)

theorem State.RecordStep.same (s : State) : s.RecordStep s := .kept ⟨rfl, rfl, rfl, rfl, rfl⟩ rfl

theorem State.SetFrame.sameOuts {s t : State} (h : State.SetFrame s t) : t.sameOuts s := by
  obtain ⟨_, _, _, _, _, _, _, rfl⟩ := h.eq
  exact ⟨rfl, rfl, rfl, rfl, rfl⟩

/-- The grant alone is made behind records handed on. -/
theorem State.handsOn.step {s u : State} (h : s.handsOn u) (hu : u.ring = s.ring) : s.RecordStep u.grant :=
  .handed u h hu ⟨rfl, rfl, rfl, rfl, rfl⟩ rfl

theorem State.handsOn.stepThen {s t u : State} (h : s.handsOn u) (hu : u.ring = s.ring)
    (hf : State.SetFrame u.grant t) : s.RecordStep t :=
  .handed u h hu hf.sameOuts hf.ring

section
variable {s t : State} {p : Port}

theorem execDistanceBaseStrobe_records (h : execDistanceBaseStrobe s = .next t) : s.RecordStep t := by
  unfold execDistanceBaseStrobe at h
  split at h
  · cases h; exact .same s
  · next i rest hi =>
    obtain ⟨b, hb⟩ := DistanceBase.takeItems_out { s.base with inbox := rest } s.store.committed.sampling
      s.store.committed.odometry i
    simp only [hb] at h
    cases h
    refine State.handsOn.stepThen ?_ (by rfl) (State.SetFrame.ofReady _)
    refine ⟨⟨[], (List.append_nil _).symm⟩, exists_append_same rfl, ?_, ⟨[], (List.append_nil _).symm⟩,
      exists_append_same rfl⟩
    dsimp only
    split
    · exact ⟨_, rfl, by simp [markRecord, Record.notPoint]⟩
    · exact exists_append_same rfl

theorem execSpatialSampleTake_records (h : execSpatialSampleTake s = .next t) : s.RecordStep t := by
  unfold execSpatialSampleTake at h
  split at h
  · cases h; exact .same s
  · next x rest _ =>
    cases h
    refine State.handsOn.step ⟨?_, exists_append_same rfl, exists_append_same rfl,
      ⟨[], (List.append_nil _).symm⟩, exists_append_same rfl⟩ rfl
    obtain ⟨gs, hg⟩ := GeometryUnit.takeSample_out { s.geo with inbox := rest } s.store.installedCal
      s.store.committed.sampling s.classFor x
    obtain ⟨gs', hg'⟩ := GeometryUnit.endRun_out (({ s.geo with inbox := rest }).takeSample s.store.installedCal
      s.store.committed.sampling s.classFor x) s.store.committed.sampling s.classFor
    exact ⟨gs ++ gs', by rw [hg', hg, List.append_assoc]⟩

theorem execRingAppend_records (h : execRingAppend s = .next t) : s.RecordStep t := by
  unfold execRingAppend at h
  split at h
  · cases h; exact .same s
  · next w _ =>
    split at h
    · cases h; exact .same s
    · next body hw =>
      cases h
      exact .appended w body hw _ rfl rfl

theorem execPointEvaluation_records (h : execPointEvaluation s = .next t) : s.RecordStep t := by
  unfold execPointEvaluation at h
  split at h
  · next r rest _ =>
    split at h <;> cases h
    · refine (s.evaluate_handsOn r rest).step ?_
      rw [(s.evaluate_frame r rest).1]
    · exact .same s
  · cases h; exact .same s

theorem execTruncation_records (h : execTruncation s = .next t) : s.RecordStep t := by
  unfold execTruncation at h
  split at h
  · next cause rest _ =>
    split at h <;> cases h
    · have hon := State.truncateFrom_handsOn { s with exc := { s.exc with evalList := rest } } cause
        (openCount s.exc.trackers) 0
      refine State.handsOn.step (u := s.truncate cause rest) ⟨hon.geo, hon.exc, hon.marking, hon.base, hon.run⟩ ?_
      unfold State.truncate
      rw [State.truncateFrom_frame]
    · exact .same s
  · cases h; exact .same s

/-- A record handed on by run control. -/
theorem State.handsOn.ofRun {u : State} (hg : u.geo = s.geo) (he : u.exc.out = s.exc.out)
    (hm : u.marking.out = s.marking.out) (hb : u.base.out = s.base.out) (b : Record) (hn : b.notPoint)
    (hr : u.run.out = s.run.out ++ [b]) : s.handsOn u :=
  ⟨⟨[], by simp [hg]⟩, exists_append_same he, exists_append_same hm, ⟨[], by simp [hb]⟩,
    ⟨[b], hr, by simpa using hn⟩⟩

/-- Run control hands on a record as it takes a request. -/
theorem State.RecordStep.ofRun (run : RunControl) (b : Record)
    (ht : ∃ ports, t = { State.grant { s with run := run } with ports := ports })
    (hr : run.out = s.run.out ++ [b]) (hb : b.notPoint) : s.RecordStep t := by
  obtain ⟨_, rfl⟩ := ht
  exact .handed { s with run := run } (.ofRun rfl rfl rfl rfl b hb hr) rfl ⟨rfl, rfl, rfl, rfl, rfl⟩ rfl

/-- The distance base hands on a FIX record as it answers the request. -/
theorem State.RecordStep.ofBase (base : DistanceBase) (x : WaitingFix)
    (ht : ∃ ports, t = { State.grant { s with base := base } with ports := ports })
    (hb : base.out = s.base.out ++ [x]) : s.RecordStep t := by
  obtain ⟨_, rfl⟩ := ht
  exact .handed { s with base := base } ⟨⟨[], (List.append_nil _).symm⟩, exists_append_same rfl,
    exists_append_same rfl, ⟨[x], hb⟩, exists_append_same rfl⟩ rfl ⟨rfl, rfl, rfl, rfl, rfl⟩ rfl

theorem execRunStart_records (h : execRunStart p s = .next t) : s.RecordStep t := by
  refine State.serve_next (P := s.RecordStep) h (.same s) (fun _ => .kept ⟨rfl, rfl, rfl, rfl, rfl⟩ rfl)
    fun r _ _ => ?_
  dsimp only
  split
  · exact .kept ⟨rfl, rfl, rfl, rfl, rfl⟩ rfl
  · split
    · exact .kept ⟨rfl, rfl, rfl, rfl, rfl⟩ rfl
    · refine .ofRun _ _ ⟨_, rfl⟩ rfl ?_
      simp [Record.notPoint, runStartRecord]

theorem execRunResume_records (h : execRunResume p s = .next t) : s.RecordStep t := by
  refine State.serve_next (P := s.RecordStep) h (.same s) (fun _ => .kept ⟨rfl, rfl, rfl, rfl, rfl⟩ rfl)
    fun r _ _ => ?_
  dsimp only
  split
  · exact .kept ⟨rfl, rfl, rfl, rfl, rfl⟩ rfl
  · refine .ofRun _ _ ⟨_, rfl⟩ rfl ?_
    simp [Record.notPoint]

theorem execGeometryRunPause_records (h : execGeometryRunPause s = .next t) : s.RecordStep t := by
  unfold execGeometryRunPause at h
  split at h <;> cases h
  · exact State.handsOn.step ⟨GeometryUnit.pause_out .., exists_append_same rfl, exists_append_same rfl,
      ⟨[], (List.append_nil _).symm⟩, exists_append_same rfl⟩ rfl
  · exact .same s

theorem execDistanceBaseRunEnd_records (h : execDistanceBaseRunEnd s = .next t) : s.RecordStep t := by
  unfold execDistanceBaseRunEnd at h
  split at h <;> cases h
  · exact State.handsOn.step ⟨GeometryUnit.endRun_out .., exists_append_same rfl, exists_append_same rfl,
      ⟨[], (List.append_nil _).symm⟩, exists_append_same rfl⟩ rfl
  · exact .same s

theorem execTruncationFinished_records (h : execTruncationFinished s = .next t) : s.RecordStep t := by
  have same : s.RecordStep s := .same s
  unfold execTruncationFinished at h
  split at h
  · next o tr _ _ =>
    split at h
    · split at h
      · next j _ =>
        cases h
        exact State.handsOn.step (u := s.pauseReported o j tr.closed)
          (.ofRun rfl rfl rfl rfl (pauseRecord o j _ _) (by simp [pauseRecord, Record.notPoint]) rfl) rfl
      · split at h <;> cases h
        · exact State.handsOn.step (u := s.endReported o)
            (.ofRun rfl rfl rfl rfl (runEndRecord o _ _ _) (by simp [runEndRecord, Record.notPoint]) rfl) rfl
        · exact same
      · cases h; exact same
      · cases h; exact same
    · cases h; exact same
  · cases h; exact same

theorem execPositionFix_records (h : execPositionFix p s = .next t) : s.RecordStep t := by
  refine State.serve_next (P := s.RecordStep) h (.same s) (fun _ => .kept ⟨rfl, rfl, rfl, rfl, rfl⟩ rfl)
    fun r _ _ => ?_
  dsimp only
  split; · exact .kept ⟨rfl, rfl, rfl, rfl, rfl⟩ rfl
  split; · exact .kept ⟨rfl, rfl, rfl, rfl, rfl⟩ rfl
  split; · exact .kept ⟨rfl, rfl, rfl, rfl, rfl⟩ rfl
  split; · exact .kept ⟨rfl, rfl, rfl, rfl, rfl⟩ rfl
  split; · exact .kept ⟨rfl, rfl, rfl, rfl, rfl⟩ rfl
  split
  · exact .kept ⟨rfl, rfl, rfl, rfl, rfl⟩ rfl
  · exact .ofBase _ _ ⟨_, rfl⟩ rfl

end

theorem restarted_records (s : State) (pending : List Instr) (store : Store) (links : PerPort LinkState) :
    s.RecordStep (restarted pending store links) := by
  obtain ⟨_, _, _, _, _, _, _, _, _, _, _, h⟩ := restarted_eq pending store links
  rw [h]
  exact .reset (fun w => by cases w <;> rfl) ⟨rfl, rfl, rfl, rfl⟩ rfl

/-- What every command does to the records waiting and to the ring. -/
theorem exec_records {c : Instr} {s t : State} (h : exec c s = .next t) : s.RecordStep t := by
  obtain ⟨-, h | ⟨links, h⟩⟩ | hm := exec_restarts_or_mayBecome h
  · rw [h]; exact restarted_records ..
  · rw [h]; exact restarted_records ..
  · cases c with
    | resetLine => exact hm.elim
    | distanceBaseStrobe => exact execDistanceBaseStrobe_records h
    | spatialSampleTake => exact execSpatialSampleTake_records h
    | ringAppend => exact execRingAppend_records h
    | pointEvaluation => exact execPointEvaluation_records h
    | truncation => exact execTruncation_records h
    | runStart p => exact execRunStart_records h
    | runResume p => exact execRunResume_records h
    | geometryRunPause => exact execGeometryRunPause_records h
    | distanceBaseRunEnd => exact execDistanceBaseRunEnd_records h
    | truncationFinished => exact execTruncationFinished_records h
    | positionFix p => exact execPositionFix_records h
    | _ =>
      repeat obtain ⟨_, hm⟩ := hm
      exact .kept ⟨rfl, rfl, rfl, rfl, rfl⟩ rfl

/-! ## The ring stays consecutive (R161) -/

theorem Ring.append_ringOk {r : Ring} (h : ringOk r) (w : Writer) (n : Nat) (b : Record) :
    ringOk (r.append w n b) := by
  obtain ⟨hlen, hhead, hseq⟩ := h
  have hnext (k : Nat) : BitVec.ofNat 32 k + 1 = BitVec.ofNat 32 (k + 1) := (BitVec.ofNat_add k 1).symm
  by_cases hroom : r.contents.length < Config.ringCapacity
  · rw [r.append_of_room w n b hroom]
    refine ⟨by simpa using hroom, ?_, fun i x hx => ?_⟩
    · simp only [List.length_append, List.length_singleton, hhead, BitVec.add_assoc, hnext]
    · rcases Nat.lt_trichotomy i r.contents.length with hi | rfl | hi
      · rw [List.getElem?_append_left hi] at hx
        exact hseq i x hx
      · rw [List.getElem?_concat_length] at hx
        cases hx
        exact hhead
      · rw [List.getElem?_eq_none (by simp at hi ⊢; omega)] at hx
        cases hx
  · have hfull : r.contents.length = Config.ringCapacity := by omega
    have hpos : 0 < r.contents.length := by simp [hfull, Config.ringCapacity]
    have htail : r.contents.tail.length + 1 = r.contents.length := by simp; omega
    rw [r.append_of_full w n b hfull.ge]
    refine ⟨by simp only [List.length_append, List.length_singleton]; omega, ?_, fun i x hx => ?_⟩
    · simp only [List.length_append, List.length_singleton, htail, hhead]
      ac_rfl
    · have hold : r.oldest + 1 + BitVec.ofNat 32 i = r.oldest + BitVec.ofNat 32 (i + 1) := by
        rw [← hnext]; ac_rfl
      rw [hold]
      rcases Nat.lt_trichotomy i r.contents.tail.length with hi | rfl | hi
      · rw [List.getElem?_append_left hi, List.getElem?_tail] at hx
        exact hseq (i + 1) x hx
      · rw [List.getElem?_concat_length] at hx
        cases hx
        rw [htail]
        exact hhead
      · rw [List.getElem?_eq_none (by simp at hi ⊢; omega)] at hx
        cases hx

theorem State.RecordStep.keeps_ringLaw {s t : State} (h : s.RecordStep t) (hs : s.RingLaw) : t.RingLaw := by
  unfold State.RingLaw at hs ⊢
  cases h with
  | reset _ _ hr => rw [hr]; exact ⟨by simp [resetRing], rfl, by simp [resetRing]⟩
  | kept _ hr => rw [hr]; exact hs
  | handed u _ hu _ hr =>
    rw [hr]
    change ringOk u.ring
    rw [hu]; exact hs
  | appended w body _ u hu ht =>
    rw [ht]
    change ringOk u.ring
    rw [hu, (State.tellWriter_kept _ w).1]
    exact Ring.append_ringOk hs w _ body

/-! ## The order at the append port (R163) -/

theorem State.RecordStep.keeps_grantLaw {s t : State} (h : s.RecordStep t) (hs : s.GrantLaw) : t.GrantLaw := by
  cases h with
  | reset hw _ hr => exact ⟨by simp [hr, resetRing], fun _ => hw⟩
  | kept h hr => simpa only [State.GrantLaw, hr, h.waiting] using hs
  | handed u h hu ht hr =>
    have hgrant : u.grant.GrantLaw := u.grant_law fun w hw => h.waiting w (hs.1 w (hu ▸ hw))
    simpa only [State.GrantLaw, hr, ht.waiting, State.grant_waiting] using hgrant
  | appended w body _ u hu ht =>
    rw [ht]
    refine u.grant_law fun x hx => ?_
    rw [hu, (State.tellWriter_kept _ w).1] at hx
    simp [Ring.append] at hx

/-! ## Channels within ±32767 (R85) -/

/-- The law of R85 for what the geometry unit keeps: the window, and the records waiting. -/
def GeometryUnit.channelsOk (g : GeometryUnit) : Prop :=
  (∀ y ∈ g.window, y.gauge.ok ∧ y.xlevel.ok) ∧ ∀ r ∈ g.out, (Record.point r).channelsOk

theorem GeometryUnit.channelsOk.ofSame {g g' : GeometryUnit} (h : g.channelsOk) (hw : g'.window = g.window)
    (ho : g'.out = g.out) : g'.channelsOk := by
  unfold GeometryUnit.channelsOk
  rwa [hw, ho]

theorem saturate_ok (v : Option Int) : (saturate v).ok := by
  cases v with
  | none => simp [saturate, Channel.ok]
  | some v =>
    rw [saturate_some]
    intro x hx
    simp only [limitedChannel, Option.some.injEq] at hx
    omega

theorem absentChannel_ok : absentChannel.ok := by simp [absentChannel, Channel.ok]

theorem twistOf_ok (h : List HistoryPair) (m : Nat) (x : Channel) (b : Nat) : (twistOf h m x b).ok := by
  unfold twistOf
  split
  · exact absentChannel_ok
  · next back _ =>
    dsimp only
    split
    · exact absentChannel_ok
    · exact saturate_ok _

theorem versineOf_ok (w : List WindowSample) (u : WindowSample → Option Int) (m h : Nat) :
    (versineOf w u m h).ok := by
  unfold versineOf
  split
  · split
    · exact saturate_ok _
    · exact absentChannel_ok
  · exact absentChannel_ok

theorem channelsOf_ok (sam : SamplingImage) (w : List WindowSample) (h : List HistoryPair) {x : WindowSample}
    (hx : x.gauge.ok ∧ x.xlevel.ok) : ∀ c ∈ (channelsOf sam w h x).list, c.ok := by
  simp only [Channels.list, channelsOf, List.forall_mem_cons]
  exact ⟨hx.1, hx.2, twistOf_ok _ _ _ _, twistOf_ok _ _ _ _, versineOf_ok _ _ _ _, versineOf_ok _ _ _ _, versineOf_ok _ _ _ _,
    versineOf_ok _ _ _ _, by simp⟩

theorem GeometryUnit.write_channelsOk {g : GeometryUnit} (hg : g.channelsOk) (sam : SamplingImage)
    (cls : Nat → Nat) (final : Bool) {x : WindowSample} (hx : x.gauge.ok ∧ x.xlevel.ok) :
    (g.write sam cls final x).channelsOk := by
  refine ⟨fun y hy => ?_, fun r hr => ?_⟩
  · obtain ⟨z, hz, rfl⟩ := List.mem_map.mp hy
    split <;> exact hg.1 z hz
  · rcases List.mem_append.mp hr with hr | hr
    · exact hg.2 r hr
    · rw [List.mem_singleton.mp hr]
      exact channelsOf_ok _ _ _ hx

theorem GeometryUnit.writeAll_channelsOk (sam : SamplingImage) (cls : Nat → Nat) {xs : List WindowSample}
    (hxs : ∀ x ∈ xs, x.gauge.ok ∧ x.xlevel.ok) {g : GeometryUnit} (hg : g.channelsOk) :
    (g.writeAll sam cls xs).channelsOk := by
  induction xs generalizing g with
  | nil => exact hg
  | cons x xs ih =>
    obtain ⟨hx, hxs⟩ := List.forall_mem_cons.mp hxs
    exact ih hxs (GeometryUnit.write_channelsOk hg sam cls true hx)

theorem GeometryUnit.pause_channelsOk {g : GeometryUnit} (hg : g.channelsOk) (sam : SamplingImage)
    (cls : Nat → Nat) : (g.pause sam cls).channelsOk := by
  have h := GeometryUnit.writeAll_channelsOk sam cls (xs := g.window.filter (fun x => !x.written))
    (fun x hx => hg.1 x (List.mem_filter.mp hx).1) hg
  unfold GeometryUnit.pause
  split <;> exact h

theorem GeometryUnit.endRun_channelsOk {g : GeometryUnit} (hg : g.channelsOk) (sam : SamplingImage)
    (cls : Nat → Nat) : (g.endRun sam cls).channelsOk := by
  unfold GeometryUnit.endRun
  split
  · exact hg
  · split
    · dsimp only
      split
      · exact GeometryUnit.pause_channelsOk hg sam cls
      · split <;> exact hg
    · exact hg

theorem GeometryUnit.takeSample_channelsOk {g : GeometryUnit} (hg : g.channelsOk) (c : CalibrationImage)
    (sam : SamplingImage) (cls : Nat → Nat) (x : SpatialSample) : (g.takeSample c sam cls x).channelsOk := by
  have henter : (g.enter c sam x).channelsOk := by
    refine ⟨fun y hy => ?_, hg.2⟩
    rcases List.mem_append.mp (List.mem_filter.mp hy).1 with hy | hy
    · exact hg.1 y hy
    · rw [List.mem_singleton.mp hy]
      exact ⟨saturate_ok _, saturate_ok _⟩
  unfold GeometryUnit.takeSample
  split
  · unfold GeometryUnit.emit
    split
    · split
      · next z hz => exact GeometryUnit.write_channelsOk henter sam cls false (henter.1 z (List.mem_of_find?_eq_some hz))
      · exact henter
    · exact henter
  · refine ⟨hg.1, fun r hr => ?_⟩
    rcases List.mem_append.mp hr with hr | hr
    · exact hg.2 r hr
    · rw [List.mem_singleton.mp hr]
      simp [pointRecord, Record.channelsOk, absentChannels, Channels.list, absentChannel_ok]

/-- Every command keeps the channels of the geometry unit within R85. -/
theorem exec_keeps_geometryChannels {c : Instr} {s t : State} (hs : GeometryUnit.channelsOk s.geo)
    (h : exec c s = .next t) : t.geo.channelsOk := by
  obtain ⟨-, h | ⟨links, h⟩⟩ | hm := exec_restarts_or_mayBecome h
  · obtain ⟨_, _, _, _, _, _, _, _, _, _, _, hr⟩ := restarted_eq s.pending resetStore (.all .down)
    rw [h, hr]; exact ⟨by simp [resetGeometry], by simp [resetGeometry]⟩
  · obtain ⟨_, _, _, _, _, _, _, _, _, _, _, hr⟩ := restarted_eq s.pending s.store.afterResetPart links
    rw [h, hr]; exact ⟨by simp [resetGeometry], by simp [resetGeometry]⟩
  · cases c with
    | resetLine => exact hm.elim
    | spatialSampleTake =>
      change execSpatialSampleTake s = _ at h
      unfold execSpatialSampleTake at h
      split at h
      · cases h; exact hs
      · next x rest _ =>
        cases h
        refine GeometryUnit.endRun_channelsOk ?_ _ _
        exact GeometryUnit.takeSample_channelsOk (g := { s.geo with inbox := rest }) hs _ _ _ _
    | ringAppend =>
      change execRingAppend s = _ at h
      unfold execRingAppend at h
      split at h
      · cases h; exact hs
      · next w _ =>
        split at h <;> cases h
        · exact hs
        · cases w with
          | geometry => exact ⟨hs.1, fun r hr => hs.2 r (List.mem_of_mem_tail hr)⟩
          | exceedance =>
            simp only [State.grant_geo, State.appendRecord, State.tellWriter]
            rw [State.goOn_frame]
            exact hs
          | marking | base | runControl => exact hs
    | geometryRunStart =>
      change execGeometryRunStart s = _ at h
      unfold execGeometryRunStart at h
      split at h <;> cases h
      · exact ⟨by simp [GeometryUnit.runStart, GeometryUnit.openSegment], hs.2⟩
      · exact hs
    | geometryRunResume =>
      change execGeometryRunResume s = _ at h
      unfold execGeometryRunResume at h
      split at h <;> cases h
      · exact ⟨by simp [GeometryUnit.openSegment], hs.2⟩
      · exact hs
    | geometryRunPause =>
      change execGeometryRunPause s = _ at h
      unfold execGeometryRunPause at h
      split at h <;> cases h
      · exact GeometryUnit.pause_channelsOk hs _ _
      · exact hs
    | distanceBaseRunEnd =>
      change execDistanceBaseRunEnd s = _ at h
      unfold execDistanceBaseRunEnd at h
      split at h <;> cases h
      · refine GeometryUnit.endRun_channelsOk ?_ _ _
        exact GeometryUnit.channelsOk.ofSame hs rfl rfl
      · exact hs
    | _ =>
      repeat obtain ⟨_, hm⟩ := hm
      exact hs

theorem State.truncateFrom_evalList (s : State) (cause : TruncationCause) (closed next : Nat) :
    (s.truncateFrom cause closed next).exc.evalList = s.exc.evalList := by
  unfold State.truncateFrom
  dsimp only
  split <;> rfl

theorem State.goOn_evalList (s : State) : s.goOn.exc.evalList = s.exc.evalList := by
  unfold State.goOn
  split
  · rfl
  · rfl
  · exact s.truncateFrom_evalList _ _ _

/-- A POINT record comes to the evaluation list from the geometry unit alone (R89, R114). -/
theorem exec_evalList {c : Instr} {s t : State} (h : exec c s = .next t) (r : PointRecord)
    (hr : .point r ∈ t.exc.evalList) : .point r ∈ s.exc.evalList ∨ r ∈ s.geo.out := by
  obtain ⟨-, h | ⟨links, h⟩⟩ | hm := exec_restarts_or_mayBecome h
  · obtain ⟨_, _, _, _, _, _, _, _, _, _, _, he⟩ := restarted_eq s.pending resetStore (.all .down)
    simp [h, he, cleared, resetExceedance] at hr
  · obtain ⟨_, _, _, _, _, _, _, _, _, _, _, he⟩ := restarted_eq s.pending s.store.afterResetPart links
    simp [h, he, cleared, resetExceedance] at hr
  · cases c with
    | resetLine => exact hm.elim
    | ringAppend =>
      change execRingAppend s = _ at h
      unfold execRingAppend at h
      split at h
      · cases h; exact .inl hr
      · next w _ =>
        split at h <;> cases h
        · exact .inl hr
        · cases w with
          | geometry =>
            rcases List.mem_append.mp hr with hr | hr
            · exact .inl hr
            · simp only [List.mem_map, EvalItem.point.injEq, exists_eq_right] at hr
              exact .inr (List.mem_of_mem_take hr)
          | exceedance =>
            simp only [State.grant_exc, State.appendRecord, State.tellWriter, State.goOn_evalList] at hr
            exact .inl hr
          | marking | base | runControl => exact .inl hr
    | pointEvaluation =>
      change execPointEvaluation s = _ at h
      unfold execPointEvaluation at h
      split at h
      · next x rest hl =>
        split at h <;> cases h
        · rw [State.grant_exc, (s.evaluate_frame x rest).2.2.1] at hr
          exact .inl (hl ▸ List.mem_cons_of_mem _ hr)
        · exact .inl hr
      · cases h; exact .inl hr
    | truncation =>
      change execTruncation s = _ at h
      unfold execTruncation at h
      split at h
      · next cause rest hl =>
        split at h <;> cases h
        · rw [State.grant_exc, State.truncate, State.truncateFrom_evalList] at hr
          exact .inl (hl ▸ List.mem_cons_of_mem _ hr)
        · exact .inl hr
      · cases h; exact .inl hr
    | flushFinished =>
      change execFlushFinished s = _ at h
      unfold execFlushFinished at h
      split at h
      · cases h; exact .inl hr
      · split at h
        · split at h <;> cases h
          · rcases List.mem_append.mp hr with hr | hr
            · exact .inl hr
            · simp at hr
          · exact .inl hr
        · cases h; exact .inl hr
    | _ =>
      repeat obtain ⟨_, hm⟩ := hm
      exact .inl hr

/-- The records that the exceedance unit, the marking unit and run control have waiting. -/
def State.otherOuts (s : State) : List Record := s.exc.out ++ s.marking.out ++ s.run.out

theorem State.handsOn.otherOuts {s t : State} (h : s.handsOn t) :
    ∀ b ∈ t.otherOuts, b ∈ s.otherOuts ∨ b.notPoint := by
  obtain ⟨-, ⟨es, he, hes⟩, ⟨ms, hm, hms⟩, -, ⟨rs, hr, hrs⟩⟩ := h
  simp only [State.otherOuts, he, hm, hr, List.mem_append]
  rintro b (((hb | hb) | hb | hb) | hb | hb)
  · exact .inl (.inl (.inl hb))
  · exact .inr (hes b hb)
  · exact .inl (.inl (.inr hb))
  · exact .inr (hms b hb)
  · exact .inl (.inr hb)
  · exact .inr (hrs b hb)

theorem State.tellWriter_otherOuts (s : State) (w : Writer) :
    ∀ b ∈ (s.tellWriter w).otherOuts, b ∈ s.otherOuts ∨ b.notPoint := by
  cases w with
  | geometry | base => exact fun b hb => .inl hb
  | exceedance =>
    intro b hb
    refine ((State.goOn_handsOn { s with exc := s.exc.told }).otherOuts b hb).imp_left fun hb => ?_
    simp only [State.otherOuts, List.mem_append, ExceedanceUnit.told] at hb ⊢
    exact hb.imp_left (Or.imp_left List.mem_of_mem_tail)
  | marking =>
    intro b hb
    simp only [State.otherOuts, State.tellWriter, List.mem_append] at hb ⊢
    exact .inl (hb.imp_left (Or.imp_right List.mem_of_mem_tail))
  | runControl =>
    intro b hb
    simp only [State.otherOuts, State.tellWriter, List.mem_append] at hb ⊢
    exact .inl (hb.imp_right List.mem_of_mem_tail)

theorem State.RecordStep.otherOuts {s t : State} (h : s.RecordStep t) :
    ∀ b ∈ t.otherOuts, b ∈ s.otherOuts ∨ b.notPoint := by
  cases h with
  | reset _ ho _ => simp [State.otherOuts, ho]
  | kept h _ => exact (State.handsOn.ofSame h).otherOuts
  | handed u h _ ht _ =>
    intro b hb
    obtain ⟨-, he, hm, -, hr⟩ := ht
    refine h.otherOuts b ?_
    simpa only [State.otherOuts, he, hm, hr] using hb
  | appended w body hw u hu ht =>
    rw [ht, hu]
    exact State.tellWriter_otherOuts _ w

/-- A record waiting is within R85. -/
theorem State.ChannelLaw.waiting {s : State} (hs : s.ChannelLaw) {w : Writer} {b : Record}
    (hw : s.waiting w = some b) : b.channelsOk := by
  obtain ⟨-, hgeo, -, houts, -⟩ := hs
  cases w with
  | geometry =>
    obtain ⟨r, hr, rfl⟩ := Option.map_eq_some_iff.mp hw
    exact hgeo r (List.mem_of_mem_head? hr)
  | exceedance => exact houts b (by simp [List.mem_of_mem_head? hw])
  | marking => exact houts b (by simp [List.mem_of_mem_head? hw])
  | runControl => exact houts b (by simp [List.mem_of_mem_head? hw])
  | base =>
    simp only [State.waiting, DistanceBase.waiting] at hw
    split at hw
    · cases hw
    · split at hw <;> cases hw
      trivial

theorem State.RecordStep.keeps_contents {s t : State} (h : s.RecordStep t) (hs : s.ChannelLaw) :
    ∀ x ∈ t.ring.contents, x.body.channelsOk := by
  obtain ⟨-, -, -, -, hcontents⟩ := id hs
  cases h with
  | reset _ _ hr => simp [hr, resetRing]
  | kept _ hr => rwa [hr]
  | handed u _ hu _ hr =>
    rw [hr]
    change ∀ x ∈ u.ring.contents, _
    rwa [hu]
  | appended w body hw u hu ht =>
    rw [ht]
    change ∀ x ∈ u.ring.contents, _
    rw [hu, (State.tellWriter_kept _ w).1]
    intro x hx
    rcases List.mem_append.mp hx with hx | hx
    · split at hx
      · exact hcontents x (List.mem_of_mem_tail hx)
      · exact hcontents x hx
    · rw [List.mem_singleton.mp hx]
      exact hs.waiting hw

theorem exec_keeps_channelLaw {c : Instr} {s t : State} (hs : s.ChannelLaw) (h : exec c s = .next t) :
    t.ChannelLaw := by
  have hrecords := exec_records h
  obtain ⟨hwindow, hgeo, heval, houts, -⟩ := id hs
  obtain ⟨hwindow', hgeo'⟩ := exec_keeps_geometryChannels ⟨hwindow, hgeo⟩ h
  refine ⟨hwindow', hgeo', fun r hr => ?_, fun b hb => ?_, hrecords.keeps_contents hs⟩
  · exact (exec_evalList h r hr).elim (heval r) (hgeo r)
  · exact (hrecords.otherOuts b hb).elim (houts b) Record.notPoint.channelsOk

/-- Settles O42: only an append adds to the ring; every hand-over is followed by a grant; and a POINT record
is formed of saturated channels. -/
theorem ringStaysConsecutive : Obligations.RingStaysConsecutive := by
  unfold Obligations.RingStaysConsecutive
  exact ⟨fun s t hs h => step_keeps (P := State.RingLaw) (fun _ _ hs => hs)
      (fun _ _ _ hs h => (exec_records h).keeps_ringLaw hs) hs h,
    fun s t hs h => step_keeps (P := State.GrantLaw)
      (fun _ _ hs => ⟨fun w hw => by have := hs.1 w hw; cases w <;> exact this,
        fun hn w => by have := hs.2 hn w; cases w <;> exact this⟩)
      (fun _ _ _ hs h => (exec_records h).keeps_grantLaw hs) hs h,
    fun s t hs h => step_keeps (P := State.ChannelLaw) (fun _ _ hs => hs)
      (fun _ _ _ hs h => exec_keeps_channelLaw hs h) hs h⟩

end Sys2Proof.Machine
end

section
/-! PROOFS. The record ring's delivery (10.1, 10.3 to 10.5, 12.1, 12.4): places of sequence numbers, refills,
streams, Read Records, and a link that goes DOWN. -/

namespace Sys2Proof.Machine

/-! ## Places of a sequence number (R162, R168) -/

theorem Ring.isPresent_iff (r : Ring) (s : Word32) :
    r.isPresent s = true ↔ (s - r.oldest).toNat < (r.head - r.oldest).toNat :=
  decide_eq_true_iff

theorem Ring.isBehind_iff (r : Ring) (s : Word32) :
    r.isBehind s = true ↔ (r.head - r.oldest).toNat < (r.head - s).toNat :=
  decide_eq_true_iff

/-- The number at the head is not present. -/
theorem Ring.isPresent_head (r : Ring) : r.isPresent r.head = false := by
  simp [Ring.isPresent, Ring.present]

/-- A cursor that is not behind is present or at the head (R162). -/
theorem Ring.isPresent_or_head {r : Ring} {s : Word32} (h : r.isBehind s = false) :
    r.isPresent s = true ∨ s = r.head := by
  have hle : (r.head - s).toNat ≤ (r.head - r.oldest).toNat := by
    by_contra hlt
    rw [(r.isBehind_iff s).mpr (by omega)] at h
    cases h
  by_cases hs : s = r.head
  · exact .inr hs
  · refine .inl ((r.isPresent_iff s).mpr ?_)
    have hne : s.toNat ≠ r.head.toNat := fun e => hs (BitVec.eq_of_toNat_eq e)
    simp only [BitVec.toNat_sub] at hle ⊢
    omega

theorem Ring.isAhead_iff (r : Ring) (s : Word32) :
    r.isAhead s = true ↔ r.isPresent s = false ∧ 1 ≤ (s - r.head).toNat
      ∧ (s - r.head).toNat ≤ 2 ^ 31 - 1 := by
  simp [Ring.isAhead, and_assoc]

theorem Ring.isGone_iff (r : Ring) (s : Word32) :
    r.isGone s = true ↔ r.isPresent s = false ∧ s ≠ r.head ∧ r.isAhead s = false := by
  simp [Ring.isGone, and_assoc]

/-- The four places of a sequence number exclude each other, and there is no fifth. -/
theorem Ring.place_cases (r : Ring) (s : Word32) :
    (r.isPresent s = true ∧ s ≠ r.head ∧ r.isAhead s = false ∧ r.isGone s = false)
      ∨ (r.isPresent s = false ∧ s = r.head ∧ r.isAhead s = false ∧ r.isGone s = false)
      ∨ (r.isPresent s = false ∧ s ≠ r.head ∧ r.isAhead s = true ∧ r.isGone s = false)
      ∨ (r.isPresent s = false ∧ s ≠ r.head ∧ r.isAhead s = false ∧ r.isGone s = true) := by
  cases hp : r.isPresent s with
  | true =>
    have hne : s ≠ r.head := fun h => by simp [h, r.isPresent_head] at hp
    exact .inl ⟨rfl, hne, by simp [Ring.isAhead, hp], by simp [Ring.isGone, hp]⟩
  | false =>
    by_cases hs : s = r.head
    · exact .inr (.inl ⟨rfl, hs, by simp [Ring.isAhead, hs], by simp [Ring.isGone, hs]⟩)
    · cases ha : r.isAhead s with
      | true => exact .inr (.inr (.inl ⟨rfl, hs, rfl, by simp [Ring.isGone, ha]⟩))
      | false => exact .inr (.inr (.inr ⟨rfl, hs, rfl, (r.isGone_iff s).mpr ⟨hp, hs, ha⟩⟩))

/-- Settles O43: each clause is the equivalence above that says it, and the overrun by its mode. -/
theorem placesOfASequenceNumber : Obligations.PlacesOfASequenceNumber := by
  unfold Obligations.PlacesOfASequenceNumber
  intro r s n
  refine ⟨r.isPresent_iff s, r.isAhead_iff s, r.isGone_iff s, r.place_cases s, r.isBehind_iff s,
    fun h => by simp [Ring.lostCount, h], fun h => ⟨Ring.isPresent_or_head h, by simp [Ring.lostCount, h]⟩,
    fun q hq => ⟨fun hm => ?_, fun hm => ?_⟩⟩
  · simp [PortState.overrunAt, hm, hq]
  · simp [PortState.overrunAt, hm, hq]

/-! ## Refills (R166, R167) -/

theorem PortState.passes_iff (q : PortState) (r : RingRecord) :
    q.passes r = true ↔ q.filter.getLsbD r.body.kind = true
      ∧ ∀ x, r.body = .point x → x.point % q.decimation = 0 := by
  unfold PortState.passes
  cases hb : r.body with
  | point x => simp [Record.pointNumber?]
  | _ => simp [Record.pointNumber?]

/-- In a consecutive ring as many records are present as it holds (R161). -/
theorem ringOk.present {r : Ring} (h : ringOk r) : (r.head - r.oldest).toNat = r.contents.length := by
  obtain ⟨hlen, hhead, -⟩ := h
  simp only [Config.ringCapacity] at hlen
  rw [hhead, BitVec.add_comm, BitVec.add_sub_cancel, BitVec.toNat_ofNat]
  omega

/-- In a consecutive ring the records from a cursor on that is not behind lead up to the head (R161). -/
theorem ringOk.cursor_to_head {r : Ring} (h : ringOk r) {c : Word32} (hc : r.isBehind c = false) :
    c + BitVec.ofNat 32 (r.contents.drop (c - r.oldest).toNat).length = r.head := by
  have hle : (c - r.oldest).toNat ≤ r.contents.length := by
    rw [← h.present]
    obtain hp | rfl := Ring.isPresent_or_head hc
    · exact ((r.isPresent_iff c).mp hp).le
    · exact le_rfl
  have hlen := h.1
  have hhead := congrArg BitVec.toNat h.2.1
  apply BitVec.eq_of_toNat_eq
  simp only [Config.ringCapacity, List.length_drop, BitVec.toNat_add, BitVec.toNat_sub,
    BitVec.toNat_ofNat] at hle hlen hhead ⊢
  omega

/-- Settles O44: the records copied are those of `fill_copies`, from where an overrun leaves the cursor. -/
theorem refillCopiesPassingRecords : Obligations.RefillCopiesPassingRecords := by
  unfold Obligations.RefillCopiesPassingRecords
  refine ⟨PortState.passes_iff, ?_⟩
  intro q ring hlen q'
  refine ⟨fun h => ?none, fun hactive hroom hcursor => ?refill⟩
  case none =>
    refine if_neg ?_
    rintro ⟨hactive, hroom, hcursor⟩
    simp only [Config.transmitCapacity] at hroom
    rcases h with h | h | h
    · exact h hactive
    · omega
    · exact hcursor h
  case refill =>
    intro from_ records
    have hfrom : from_.filter = q.filter ∧ from_.decimation = q.decimation ∧ from_.txQueue.length ≤ 3 := by
      simp only [from_]
      split
      · refine ⟨by simp, by simp, ?_⟩
        rw [PortState.overrunAt_txQueue]
        split
        · simpa using hroom
        · exact hlen
      · exact ⟨rfl, rfl, hlen⟩
    have hfill : q' = from_.fill records :=
      if_pos (show q.stream = .active ∧ q.txQueue.length < Config.transmitCapacity ∧ q.cursor ≠ ring.head
        from ⟨hactive, hroom, hcursor⟩)
    obtain ⟨n, hn, hroom', heq, hend⟩ := fill_copies q records from_ hfrom.1 hfrom.2.1 hfrom.2.2
    rw [hfill]
    refine ⟨n, hn, hroom', heq, PortState.fill_txQueue_length _ _ hfrom.2.2, hend, fun hring => ?_⟩
    refine hend.imp_right fun hall => ?_
    rw [heq, hall]
    refine hring.cursor_to_head ?_
    simp only [from_]
    split
    · simp [Ring.isBehind, Ring.present]
    · next hb => simpa using hb

/-! ## Stream Start (R169, R191) -/

/-- The fields of a Stream Start's body (13.3). -/
theorem streamStart_fields (tag filter : Word16) (d choice : Byte) (n : Word32) :
    let r : Request := ⟨14, tag, leNat 2 filter.toNat ++ [d, choice] ++ leNat 4 n.toNat⟩
    r.field 0 2 = filter.toNat ∧ r.field 2 1 = d.toNat ∧ r.field 3 1 = choice.toNat ∧ r.word 4 = n := by
  intro r
  have hbody : r.body = leNat 2 filter.toNat ++ ([d, choice] ++ leNat 4 n.toNat) := List.append_assoc _ _ _
  have hword : r.field 4 4 = n.toNat := by
    have := Request.field_at (n := 4) 14 tag (leNat 2 filter.toNat ++ [d, choice]) [] (off := 4) (by simp)
      n.isLt
    rwa [List.append_nil] at this
  refine ⟨?_, ?_, ?_, by simp [Request.word, hword]⟩
  · have := Request.field_at (n := 2) 14 tag [] ([d, choice] ++ leNat 4 n.toNat) rfl filter.isLt
    simpa only [List.nil_append, r, List.append_assoc, List.length_nil] using this
  · have := Request.field_byte_at 14 tag (leNat 2 filter.toNat) (choice :: leNat 4 n.toNat) d (off := 2) (by simp)
    simpa [r] using this
  · have := Request.field_byte_at 14 tag (leNat 2 filter.toNat ++ [d]) (leNat 4 n.toNat) choice (off := 3)
      (by simp)
    simpa [r] using this

/-- A starting choice within its range is one of the four (13.3). -/
theorem startChoice_cases {c : Byte} (h : c.toNat ≤ 3) : c = 0 ∨ c = 1 ∨ c = 2 ∨ c = 3 := by
  simp only [← BitVec.toNat_inj]
  change c.toNat = 0 ∨ c.toNat = 1 ∨ c.toNat = 2 ∨ c.toNat = 3
  omega

/-- Settles O45: the checks one after another, then the installation under each starting choice. -/
theorem streamStartOutcomes : Obligations.StreamStartOutcomes := by
  unfold Obligations.StreamStartOutcomes
  intro s p tag filter d choice n rest r hd q refused
  have hfront := hd.2.2
  obtain ⟨hfilter, hdec, hchoice, hword⟩ : r.field 0 2 = filter.toNat ∧ r.field 2 1 = d.toNat
      ∧ r.field 3 1 = choice.toNat ∧ r.word 4 = n := streamStart_fields tag filter d choice n
  have hserve : exec (.streamStart p) s = .next (
      if q.stream ≠ .none then s.refuse p r .streamActive
      else if d.toNat < 1 ∨ 64 < d.toNat then s.refuseField p r 1
      else match startChoiceOf choice.toNat with
        | none => s.refuseField p r 2
        | some c => match sequenceRefusal s.ring c n with
          | some e => s.refuse p r e
          | none => s.modPort p (fun q => (q.installStream s.ring r c).activate s.ring r)) := by
    change execStreamStart p s = _
    unfold execStreamStart
    rw [State.serve_of_length (code := 14) hd rfl (by simp [r])]
    simp only [hdec, hchoice, hword]
    rfl
  rw [hserve]
  refine ⟨fun hs => ?active, fun hs => ⟨fun hbad => ?dec, fun h1 h64 h3 => ?choice, fun h1 h64 h2 ha => ?notYet,
    fun h1 h64 h2 hg => ?gone, fun h1 h64 h3 hseq => ?ok⟩⟩
  case active =>
    rw [if_pos hs, State.refuse_of_front hfront]
  all_goals rw [if_neg (not_not.mpr hs)]
  case dec =>
    have : d.toNat < 1 ∨ 64 < d.toNat := hbad.imp_left fun h => by simp [h]
    rw [if_pos this, State.refuseField_of_front hfront]
  case choice =>
    rw [if_neg (by omega)]
    have : startChoiceOf choice.toNat = none := by
      obtain ⟨m, hm⟩ := Nat.exists_eq_add_of_le' (show 4 ≤ choice.toNat by omega)
      rw [hm]
      rfl
    rw [this]
    exact congrArg _ (State.refuseField_of_front hfront 2)
  case notYet =>
    rw [if_neg (by omega)]
    subst h2
    simp only [startChoiceOf, sequenceRefusal, ha, if_true, State.refuse_of_front hfront]
    rfl
  case gone =>
    rw [if_neg (by omega)]
    subst h2
    have ha := ((s.ring.isGone_iff n).mp hg).2.2
    simp only [startChoiceOf, sequenceRefusal, ha, hg, if_true, State.refuse_of_front hfront]
    rfl
  case ok =>
    intro cursor q1 q2 q3
    have hstart (c : StartChoice) (hc : startChoiceOf choice.toNat = some c)
        (hr : sequenceRefusal s.ring c n = none) (hcur : startCursor s.ring q.cursor c n = cursor)
        (h3 : c = .continue_ ↔ choice = 3) :
        (match startChoiceOf choice.toNat with
          | none => s.refuseField p r 2
          | some c => match sequenceRefusal s.ring c n with
            | some e => s.refuse p r e
            | none => s.modPort p (fun q => (q.installStream s.ring r c).activate s.ring r))
          = { s with ports := s.ports.set p (q3.refill s.ring) } := by
      have hq : (s.ports.get p).installStream s.ring r c = q2 := by
        simp only [PortState.installStream, hfilter, hdec, hword, BitVec.ofNat_toNat, BitVec.setWidth_eq,
          h3, q2, q1, ← hcur]
        rfl
      rw [hc]
      simp only [hr]
      rw [State.modPort, hq]
      rfl
    refine congrArg Host.Outcome.next ((if_neg (by omega)).trans ?_)
    obtain rfl | rfl | rfl | rfl := startChoice_cases h3
    · exact hstart .oldest rfl rfl rfl (by simp)
    · exact hstart .newest rfl rfl (by simp [startCursor, cursor, List.isEmpty_iff]) (by simp)
    · exact hstart .sequence rfl (by simp [sequenceRefusal, hseq]) rfl (by simp)
    · exact hstart .continue_ rfl rfl rfl (by simp)

/-! ## Stream Pause, Resume and Stop (R170, R191 to R193) -/

theorem State.serve_of_empty {s : State} {p : Port} {tag : Word16} {rest : List Request} {c : Byte} {code : Nat}
    (f : Request → State) (h : s.canDispatch p ⟨c, tag, []⟩ rest) (hc : c.toNat = code) :
    s.serve p code 0 f = f ⟨c, tag, []⟩ := State.serve_of_length h hc rfl

@[simp] theorem PortState.answerPause_txQueue (q : PortState) : q.answerPause.txQueue = q.txQueue := by
  unfold PortState.answerPause
  split <;> simp

@[simp] theorem PortState.answerPause_cursor (q : PortState) : q.answerPause.cursor = q.cursor := by
  unfold PortState.answerPause
  split <;> simp

/-- A flush, with the resume number of the first item that leaves (R170). -/
theorem PortState.flush_eq (q : PortState) (kept : Nat) : q.flush kept = { q with
    txQueue := q.txQueue.take kept
    cursor := match q.txQueue.drop kept with
      | [] => q.cursor
      | .record x :: _ => x.sequence
      | .gap first _ :: _ => first } := by
  unfold PortState.flush
  congr 1
  cases q.txQueue.drop kept with
  | nil => rfl
  | cons i _ => cases i <;> rfl

theorem execStreamPause_of_canDispatch {s : State} {p : Port} {tag : Word16} {rest : List Request}
    (hd : s.canDispatch p ⟨15, tag, []⟩ rest) :
    exec (.streamPause p) s = .next (match (s.ports.get p).stream with
      | .none => s.replied p ⟨15, tag, []⟩ rest .noStream []
      | .pausing | .paused => s.replied p ⟨15, tag, []⟩ rest .wrongState []
      | .active => s.modPort p (fun q => PortState.drainPause
          { q with stream := .pausing, pendingPause := some tag, requests := rest })) := by
  change execStreamPause p s = _
  unfold execStreamPause
  rw [State.serve_of_empty (code := 15) _ hd rfl]
  have hfront := hd.2.2
  cases (s.ports.get p).stream with
  | none | pausing | paused => simp only [State.refuse_of_front hfront]
  | active => simp only [State.modPort, hfront, List.tail_cons]

theorem execStreamResume_of_canDispatch {s : State} {p : Port} {tag : Word16} {rest : List Request}
    (hd : s.canDispatch p ⟨16, tag, []⟩ rest) :
    exec (.streamResume p) s = .next (match (s.ports.get p).stream with
      | .none => s.replied p ⟨16, tag, []⟩ rest .noStream []
      | .active => s.replied p ⟨16, tag, []⟩ rest .wrongState []
      | .paused => s.modPort p (fun q => q.activate s.ring ⟨16, tag, []⟩)
      | .pausing => s.modPort p (fun q => q.answerPause.activate s.ring ⟨16, tag, []⟩)) := by
  change execStreamResume p s = _
  unfold execStreamResume
  rw [State.serve_of_empty (code := 16) _ hd rfl]
  have hfront := hd.2.2
  cases (s.ports.get p).stream <;> simp only [State.refuse_of_front hfront]

theorem execStreamStop_of_canDispatch {s : State} {p : Port} {tag : Word16} {rest : List Request}
    (hd : s.canDispatch p ⟨17, tag, []⟩ rest) :
    exec (.streamStop p) s = .next (match (s.ports.get p).stream with
      | .none => s.replied p ⟨17, tag, []⟩ rest .noStream []
      | .active | .pausing | .paused => State.answerOk
          (s.modPort p (fun q => { q.answerPause with stream := .none }.flushAtStop)) p ⟨17, tag, []⟩ []) := by
  change execStreamStop p s = _
  unfold execStreamStop
  rw [State.serve_of_empty (code := 17) _ hd rfl]
  have hfront := hd.2.2
  cases (s.ports.get p).stream <;> simp only [State.refuse_of_front hfront]

/-- What a Stream Stop leaves of its port before it is answered (R170, R193). -/
theorem PortState.stopped_eq (q : PortState) : { q.answerPause with stream := .none }.flushAtStop =
    let kept := if q.answerPause.sendsStream = true then 1 else 0
    { q.answerPause with
      stream := .none, txQueue := q.txQueue.take kept
      cursor := match q.txQueue.drop kept with
        | [] => q.cursor
        | .record x :: _ => x.sequence
        | .gap first _ :: _ => first } := by
  unfold PortState.flushAtStop
  rw [PortState.flush_eq]
  simp only [PortState.answerPause_txQueue, PortState.answerPause_cursor]
  rfl

/-- Settles O46: each clause is the case of the stream in the equations above. -/
theorem streamPauseResumeStopOutcomes : Obligations.StreamPauseResumeStopOutcomes := by
  unfold Obligations.StreamPauseResumeStopOutcomes
  refine ⟨?pause, ?resumeStop⟩
  case pause =>
    intro s p tag rest r hd q q1
    have hpause := execStreamPause_of_canDispatch hd
    refine ⟨fun hs => ?_, fun hs => ?_, fun hs hq => ?_, fun hs hq => ?_⟩
    · simp only [hpause, show (s.ports.get p).stream = _ from hs]
      rfl
    · rcases hs with hs | hs <;> simp only [hpause, show (s.ports.get p).stream = _ from hs] <;> rfl
    · simp only [hpause, show (s.ports.get p).stream = _ from hs]
      have : q1.drainPause = q1 := if_neg fun h => hq h.2
      exact congrArg (fun x => Host.Outcome.next { s with ports := s.ports.set p x }) this
    · simp only [hpause, show (s.ports.get p).stream = _ from hs]
      have : q1.drainPause = { q1 with stream := .paused }.answerPause := if_pos ⟨rfl, hq⟩
      exact congrArg (fun x => Host.Outcome.next { s with ports := s.ports.set p x }) this
  case resumeStop =>
    intro s p tag rest q answered
    refine ⟨fun hd => ?resume, fun hd => ?stop⟩
    case resume =>
      have hresume := execStreamResume_of_canDispatch hd
      refine ⟨fun hs => ?_, fun hs => ?_, fun hs => ?_⟩
      · simp only [hresume, show (s.ports.get p).stream = _ from hs]
      · simp only [hresume, show (s.ports.get p).stream = _ from hs]
      · rcases hs with hs | hs
        · simp only [hresume, show (s.ports.get p).stream = _ from hs, hs, reduceCtorEq, if_false]
          rfl
        · simp only [hresume, show (s.ports.get p).stream = _ from hs, hs, if_true]
          rfl
    case stop =>
      have hstop := execStreamStop_of_canDispatch hd
      refine ⟨fun hs => ?_, fun hs => ?_⟩
      · simp only [hstop, show (s.ports.get p).stream = _ from hs]
      · intro kept q1 q2
        have hq1 : { q.answerPause with stream := .none }.flushAtStop = q1 := q.stopped_eq
        have hend : exec (.streamStop p) s = .next (State.answerOk
            (s.modPort p (fun q => { q.answerPause with stream := .none }.flushAtStop)) p ⟨17, tag, []⟩ []) := by
          rw [hstop]
          cases hst : (s.ports.get p).stream with
          | none => exact absurd hst hs
          | active | pausing | paused => rfl
        rw [hend]
        simp only [State.answerOk, State.answer, State.finishRequest, State.modPort_modPort]
        exact congrArg (fun x : PortState => Host.Outcome.next { s with
          ports := s.ports.set p ({ x with requests := x.requests.tail }.respond 17 tag .ok []) }) hq1

/-! ## Loss of signal (R187) -/

/-- Settles O55: the flush keeps nothing, and the link goes DOWN. -/
theorem lossOfSignalOutcomes : Obligations.LossOfSignalOutcomes := by
  unfold Obligations.LossOfSignalOutcomes
  intro s p q lost
  refine ⟨fun hd => ?_, fun hu hr => ?_⟩
  · change execLossOfSignal p s = _
    unfold execLossOfSignal
    rw [show (s.ports.get p).link = _ from hd]
  · have hlost : q.goDown = lost := by
      unfold PortState.goDown
      rw [PortState.flush_eq]
      rfl
    change execLossOfSignal p s = _
    unfold execLossOfSignal
    rw [show (s.ports.get p).link = _ from hu]
    simp only [if_neg hr]
    exact congrArg (fun x => Host.Outcome.next { s with ports := s.ports.set p x }) hlost

/-! ## Placing and notices (R187, R194, R195) -/

/-- A maskable notice that is enabled is placed with room, and counted without (R195). -/
theorem PortState.offer_enabled {q : PortState} {m : Notice} (hm : q.mask.enables m = true)
    (hu : q.link = .up) :
    (q.replies.length < 16 → q.offer m = q.place (.notice m))
      ∧ (16 ≤ q.replies.length → q.offer m = { q with discarded := satInc 65535 q.discarded }) := by
  unfold PortState.offer
  rw [if_pos ⟨hu, hm⟩]
  exact ⟨fun h => if_pos h, fun h => if_neg (not_lt.mpr h)⟩

theorem PortState.offer_disabled {q : PortState} {m : Notice} (hm : q.mask.enables m = false) :
    q.offer m = q := if_neg (by simp [hm])

/-- Settles O57: the outcomes of a placing by link and transmitter, and of an offer by mask and room. -/
theorem placingAndNotices : Obligations.PlacingAndNotices := by
  unfold Obligations.PlacingAndNotices
  intro q i
  refine ⟨q.place_down i, fun hu ht => ?_, fun hu ht hr hi => q.place_free i hu ht hr hi,
    fun a b n k l c d x g h => ⟨fun m hm => ?_, fun m hm hu => ?_⟩⟩
  · obtain ⟨t, ht⟩ := Option.ne_none_iff_exists'.mp ht
    exact q.place_busy i hu ht
  · apply PortState.offer_disabled
    rcases hm with ⟨rfl, hm⟩ | ⟨rfl, hm⟩ | ⟨rfl, hm⟩ <;> exact hm
  · refine PortState.offer_enabled ?_ hu
    rcases hm with ⟨rfl, hm⟩ | ⟨rfl, hm⟩ | ⟨rfl, hm⟩ <;> exact hm

end Sys2Proof.Machine
end

section
/-! PROOFS. Requests of links (10.5, 12): Read Records, frames received and sent, and the decoding at dispatch. -/

namespace Sys2Proof.Machine

/-! ## Read Records (R171) -/

/-- In a consecutive ring the records from a present number on are those up to the head (R161, R171). -/
theorem ringOk.recordsFrom {r : Ring} (h : ringOk r) {n : Word32} (hn : r.isPresent n = true) :
    (r.contents.drop (n - r.oldest).toNat).length = (r.head - n).toNat
      ∧ ∀ i x, (r.contents.drop (n - r.oldest).toNat)[i]? = some x → x.sequence = n + BitVec.ofNat 32 i := by
  have hlt := (r.isPresent_iff n).mp hn
  rw [h.present] at hlt
  have hlen := h.1
  have hhead := congrArg BitVec.toNat h.2.1
  refine ⟨?_, fun i x hx => ?_⟩
  · simp only [Config.ringCapacity, List.length_drop, BitVec.toNat_add, BitVec.toNat_sub,
      BitVec.toNat_ofNat] at hlt hlen hhead ⊢
    omega
  · rw [List.getElem?_drop] at hx
    rw [h.2.2 _ x hx, BitVec.ofNat_add, BitVec.ofNat_toNat, BitVec.setWidth_eq, ← BitVec.add_assoc]
    congr 1
    rw [BitVec.add_comm, BitVec.sub_add_cancel]

/-- The first frame of a read list (R171, R194). -/
theorem PortState.beginRead_one (q : PortState) (tag : Word16) (x : RingRecord) :
    q.beginRead tag [x] = PortState.kick { q with
      requests := q.requests.tail, readJob := none
      replies := q.replies ++ [.readRecord tag x true, .response ⟨18, tag, .ok, [natField 2 1]⟩] } := rfl

theorem PortState.beginRead_more (q : PortState) (tag : Word16) (x y : RingRecord) (ys : List RingRecord) :
    q.beginRead tag (x :: y :: ys) = PortState.kick { q with
      readJob := some ⟨tag, y :: ys, (x :: y :: ys).length⟩
      replies := q.replies ++ [.readRecord tag x false] } := rfl

theorem PortState.without_readJob {q : PortState} (h : q.readJob = none) (requests : List Request)
    (replies : List ReplyItem) : { q with requests := requests, readJob := none, replies := replies }
      = { q with requests := requests, replies := replies } := by
  cases q
  cases h
  rfl

/-- Settles O47: the checks in their order, and the read list as the records from the number on. -/
theorem readRecordsOutcomes : Obligations.ReadRecordsOutcomes := by
  unfold Obligations.ReadRecordsOutcomes
  intro s p tag n count rest r hd refused q wanted list
  obtain ⟨-, hjob, hfront⟩ := id hd
  have hword : r.word 0 = n := by
    have := Request.field_at (n := 4) 18 tag [] (leNat 2 count.toNat) rfl n.isLt
    rw [List.nil_append, List.length_nil] at this
    rw [Request.word, this, BitVec.ofNat_toNat, BitVec.setWidth_eq]
  have hcount : r.field 4 2 = count.toNat := by
    have := Request.field_at (n := 2) 18 tag (leNat 4 n.toNat) [] (off := 4) (by simp) count.isLt
    rwa [List.append_nil] at this
  have hwanted : readCount count.toNat = wanted := by
    have : count.toNat = 0 ↔ count = 0 := by rw [← BitVec.toNat_inj]; rfl
    simp only [readCount, wanted, this]
  have hserve : exec (.readRecords p) s = .next (
      if 256 < count.toNat then refused .invalidField [natField 2 1]
      else if s.ring.isPresent n = true then s.modPort p (fun q => q.beginRead tag list)
      else if s.ring.isGone n = true then refused .gone [] else refused .notYet []) := by
    change execReadRecords p s = _
    unfold execReadRecords
    rw [State.serve_of_length (code := 18) hd rfl (by simp [r])]
    simp only [hword, hcount, hwanted, State.refuseField_of_front hfront, State.refuse_of_front hfront]
    rfl
  rw [hserve]
  refine ⟨fun h => by rw [if_pos h], fun h hp hg => ?_, fun h hg => ?_, fun h hp hring => ?_⟩
  · rw [if_neg (by omega), if_neg (by simp [hp]), if_neg (by simp [hg])]
  · rw [if_neg (by omega), if_neg (by simp [((s.ring.isGone_iff n).mp hg).1]), if_pos hg]
  · obtain ⟨hlen, hseq⟩ := ringOk.recordsFrom hring hp
    rw [if_neg (by omega), if_pos hp]
    refine ⟨by rw [List.length_take, hlen], fun i x hx => ?_, _, rfl, rfl, fun k hk => ?_, ?_⟩
    · rw [List.getElem?_take] at hx
      split at hx
      · exact hseq i x hx
      · cases hx
    · exact State.modPort_get_ne s hk _
    · rw [State.modPort_get_same]
      refine ⟨by simp [PortState.beginRead, q], by simp [PortState.beginRead, q],
        by simp [PortState.beginRead, q], by simp [PortState.beginRead, q], fun x hx => ?_, fun x y ys hx => ?_⟩
      · rw [hx, PortState.beginRead_one, hfront]
        exact congrArg PortState.kick (PortState.without_readJob hjob _ _)
      · rw [hx, PortState.beginRead_more]

/-! ## Frames received (R186, R188, R189) -/

theorem PortState.takeFrame_of_check {q : PortState} {bytes : List Byte} {c : LinkCheck}
    (h : checkLinkFrame bytes = c) : q.takeFrame bytes = match (generalizing := false) c with
      | .framing => { q with framing := satInc 65535 q.framing }
      | .crc => { q with crc := satInc 65535 q.crc }
      | .good r => q.takeRequest r := by
  subst h
  rfl

/-- Settles O53: the checks of R188 one after another, then the taking of a request. -/
theorem linkFrameOutcomes : Obligations.LinkFrameOutcomes := by
  unfold Obligations.LinkFrameOutcomes
  intro s p bytes q n synced fits sound request becomes
  have hbecomes {q' : PortState} (h : q.takeFrame bytes = q') : becomes q' := by
    subst h
    rfl
  have hcheck : checkLinkFrame bytes =
      if synced then if fits then if sound then if request then
        .good ⟨bytes.getD 2 0, BitVec.ofNat 16 (ofLe ((bytes.drop 3).take 2)), (bytes.drop 7).take n⟩
      else .framing else .crc else .framing else .framing := rfl
  refine ⟨fun h1 => ?_, fun h1 h2 => ?_, fun h1 h2 h3 => ?_, fun h1 h2 h3 h4 => ?_, fun h1 h2 h3 h4 => ?_⟩
  · exact hbecomes (PortState.takeFrame_of_check (q := q) (hcheck.trans (if_neg h1)))
  · exact hbecomes (PortState.takeFrame_of_check (q := q) (by rw [hcheck, if_pos h1, if_neg h2]))
  · exact hbecomes (PortState.takeFrame_of_check (q := q) (by rw [hcheck, if_pos h1, if_pos h2, if_neg h3]))
  · exact hbecomes (PortState.takeFrame_of_check (q := q) (by rw [hcheck, if_pos h1, if_pos h2, if_pos h3, if_neg h4]))
  · intro r up
    have hr : q.takeFrame bytes = q.takeRequest r :=
      PortState.takeFrame_of_check (q := q) (by rw [hcheck, if_pos h1, if_pos h2, if_pos h3, if_pos h4])
    refine ⟨fun hroom => ?_, fun hfull hreply => ?_, fun hfull hreply => ?_⟩
    · exact hbecomes (hr.trans (if_pos hroom))
    · exact hbecomes (hr.trans ((if_neg (not_lt.mpr hfull)).trans (if_pos hreply)))
    · exact hbecomes (hr.trans ((if_neg (not_lt.mpr hfull)).trans (if_neg (not_lt.mpr hreply))))

/-! ## Frames sent (R165, R167, R192, R194) -/

/-- A free transmitter takes the front of the reply queue, after which the next record of a Read Records is
placed (R194). -/
theorem PortState.kick_takes_reply {q : PortState} (ht : q.tx = none) {i : ReplyItem} {rest : List ReplyItem}
    (hr : q.replies = i :: rest) : q.kick =
      let taken := { q with replies := rest, tx := some ⟨.reply i, i.frame⟩ }
      if i.hasMore = true then taken.readNext else taken := by
  unfold PortState.kick
  rw [ht, hr]

/-- With the reply queue empty it takes the front of the transmit queue (R194). -/
theorem PortState.kick_takes_stream {q : PortState} (ht : q.tx = none) (hr : q.replies = []) {x : DeliveryItem}
    {rest : List DeliveryItem} (hq : q.txQueue = x :: rest) :
    q.kick = { q with tx := some ⟨.stream x, x.frame q.streamTag⟩ } := by
  unfold PortState.kick
  rw [ht, hr, hq]

theorem execTransmitFrameEnd_of_reply {s : State} {p : Port} {i : ReplyItem} {frame : List Byte}
    (h : (s.ports.get p).tx = some ⟨.reply i, frame⟩) (hr : s.resetPending = some p → i.isResetOk = false) :
    exec (.transmitFrameEnd p) s = .next (s.modPort p PortState.replySent) := by
  change execTransmitFrameEnd p s = _
  unfold execTransmitFrameEnd
  rw [h]
  exact if_neg fun hreset => by simp [hr hreset.1] at hreset

theorem execTransmitFrameEnd_of_stream {s : State} {p : Port} {x : DeliveryItem} {frame : List Byte}
    (h : (s.ports.get p).tx = some ⟨.stream x, frame⟩) :
    exec (.transmitFrameEnd p) s = .next (s.modPort p (fun q => q.streamSent s.ring)) := by
  change execTransmitFrameEnd p s = _
  unfold execTransmitFrameEnd
  rw [h]

/-- A stream that is not ACTIVE is not refilled (R167). -/
theorem PortState.refillQueue_inactive {q : PortState} (h : q.stream ≠ .active) (ring : Ring) :
    q.refillQueue ring = q := if_neg fun h' => h h'.1

theorem PortState.drainPause_not {q : PortState} (h : ¬ (q.stream = .pausing ∧ q.txQueue = [])) :
    q.drainPause = q := if_neg h

/-- Settles O56: what the transmitter takes next, and what a stream item sent leaves behind. -/
theorem transmitFrameEndOutcomes : Obligations.TransmitFrameEndOutcomes := by
  unfold Obligations.TransmitFrameEndOutcomes
  intro s p q becomes
  refine ⟨fun ht => ?none, fun i frame ht hreset => ?reply, fun x frame ht => ?stream⟩
  case none =>
    change execTransmitFrameEnd p s = _
    unfold execTransmitFrameEnd
    rw [show (s.ports.get p).tx = none from ht]
  case reply =>
    have hsent {q' : PortState} (h : q.replySent = q') : becomes q' := by
      have hexec := execTransmitFrameEnd_of_reply ht hreset
      rw [State.modPort, show (s.ports.get p).replySent = q' from h] at hexec
      exact hexec
    refine ⟨fun j rest hr => ?_, fun hr x rest hq => ?_, fun hr hq => ?_⟩
    · intro taken
      have hkick : q.replySent = if j.hasMore = true then taken.readNext else taken :=
        PortState.kick_takes_reply (q := { q with tx := none }) rfl hr
      refine ⟨fun hm => hsent (hkick.trans (if_neg (by simp [hm]))), fun hm => ?_⟩
      replace hkick := hkick.trans (if_pos hm)
      refine ⟨fun tag r n hj => hsent (hkick.trans ?_), fun tag r x xs n hj => hsent (hkick.trans ?_)⟩
      · unfold PortState.readNext
        rw [show taken.readJob = _ from hj]
        rfl
      · unfold PortState.readNext
        rw [show taken.readJob = _ from hj]
    · exact hsent (PortState.kick_takes_stream (q := { q with tx := none }) rfl hr hq)
    · exact hsent (PortState.kick_idle { q with tx := none } hr hq)
  case stream =>
    intro sent
    have hsent {q' : PortState} (h : (sent.refillQueue s.ring).drainPause = q') : becomes q'.kick := by
      have hexec := execTransmitFrameEnd_of_stream ht
      rw [State.modPort, show (s.ports.get p).streamSent s.ring = q'.kick from congrArg PortState.kick h] at hexec
      exact hexec
    refine ⟨fun hs => hsent ?_, fun hs => hsent ?_, fun hs hq => hsent ?_, fun hs hq tag hp => hsent ?_⟩
    · refine PortState.drainPause_not fun h => ?_
      have hst : (sent.refillQueue s.ring).stream = .active := by rw [PortState.refillQueue_stream]; exact hs
      rw [hst] at h
      cases h.1
    · have hst : sent.stream = .none ∨ sent.stream = .paused := hs
      rw [PortState.refillQueue_inactive (by rcases hst with h | h <;> simp [h])]
      exact PortState.drainPause_not (by rcases hst with h | h <;> simp [h])
    · have hst : sent.stream = .pausing := hs
      rw [PortState.refillQueue_inactive (by simp [hst])]
      exact PortState.drainPause_not fun h => hq h.2
    · have hst : sent.stream = .pausing := hs
      rw [PortState.refillQueue_inactive (by simp [hst])]
      unfold PortState.drainPause PortState.answerPause
      rw [if_pos ⟨hst, hq⟩]
      simp only [show sent.pendingPause = some tag from hp]

/-! ## Decoding at dispatch (R190) -/

/-- Every request of one length is dispatched with its code and that length. -/
theorem exec_of_fixedRequests {p : Port} {c : Instr} {code n : Nat} (h : (c, code, n) ∈ fixedRequests p)
    (s : State) : ∃ f, exec c s = .next (s.serve p code n f) := by
  simp only [fixedRequests, List.mem_cons, List.not_mem_nil, or_false, Prod.mk.injEq] at h
  obtain ⟨rfl, rfl, rfl⟩ | ⟨rfl, rfl, rfl⟩ | ⟨rfl, rfl, rfl⟩ | ⟨rfl, rfl, rfl⟩ | ⟨rfl, rfl, rfl⟩
    | ⟨rfl, rfl, rfl⟩ | ⟨rfl, rfl, rfl⟩ | ⟨rfl, rfl, rfl⟩ | ⟨rfl, rfl, rfl⟩ | ⟨rfl, rfl, rfl⟩
    | ⟨rfl, rfl, rfl⟩ | ⟨rfl, rfl, rfl⟩ | ⟨rfl, rfl, rfl⟩ | ⟨rfl, rfl, rfl⟩ | ⟨rfl, rfl, rfl⟩
    | ⟨rfl, rfl, rfl⟩ | ⟨rfl, rfl, rfl⟩ | ⟨rfl, rfl, rfl⟩ | ⟨rfl, rfl, rfl⟩ | ⟨rfl, rfl, rfl⟩
    | ⟨rfl, rfl, rfl⟩ := h
  all_goals exact ⟨_, rfl⟩

theorem knownCode_iff (c : Byte) : knownCode c = true ↔ 1 ≤ c.toNat ∧ c.toNat ≤ 22 := by
  simp [knownCode]

/-- Settles O58: the test of the code, and the length test that every dispatch makes. -/
theorem requestsDecodedAtDispatch : Obligations.RequestsDecodedAtDispatch := by
  unfold Obligations.RequestsDecodedAtDispatch
  refine ⟨fun s p r rest hd => ?_, fun s p r rest c code n hd hmem hcode hlen => ?_⟩
  · obtain ⟨hreset, hjob, hfront⟩ := hd
    have hexec : exec (.unknownRequest p) s
        = if knownCode r.code then .next s else .next (s.replied p r rest .unknownRequest []) := by
      change execUnknownRequest p s = _
      unfold execUnknownRequest
      rw [if_neg (by simp [State.dispatchBlocked, hreset, hjob]), hfront]
      simp only [State.refuse_of_front hfront]
    rw [hexec]
    refine ⟨fun h => if_neg ?_, fun h1 h22 => if_pos ((knownCode_iff _).mpr ⟨h1, h22⟩)⟩
    rw [knownCode_iff]
    rintro ⟨h1, h22⟩
    rcases h with h | h
    · simp [h] at h1
    · omega
  · obtain ⟨f, hf⟩ := exec_of_fixedRequests hmem s
    rw [hf, State.serve_badLength hd hcode hlen, State.refuse_of_front hd.2.2]

/-! ## The layout of frames (13.2) -/

/-- Reading back a signed field of a value within its range (13). -/
theorem signedOf_leInt (n : Nat) {v : Int} (hl : -(256 : Int) ^ n ≤ 2 * v) (hu : 2 * v < (256 : Int) ^ n) :
    signedOf n (ofLe (leInt n v)) = v := by
  have hM : (0 : Int) < 256 ^ n := by positivity
  have hcast : ((256 ^ n : Nat) : Int) = (256 : Int) ^ n := by push_cast; rfl
  have hfits : fitsField n v = true := by
    rw [fitsField, Bool.and_eq_true, decide_eq_true_eq, decide_eq_true_eq]
    exact ⟨hl, by omega⟩
  have hnonneg := Int.emod_nonneg v hM.ne'
  have hlt := Int.emod_lt_of_pos v hM
  rw [leInt, if_pos hfits, ofLe_leNat _ _ (by omega), signedOf]
  rcases le_or_gt 0 v with h | h
  · have hv : v % 256 ^ n = v := Int.emod_eq_of_lt h (by omega)
    rw [if_pos (by omega)]
    omega
  · have hv : v % 256 ^ n = v + 256 ^ n := by
      rw [← Int.add_emod_right, Int.emod_eq_of_lt (by omega) (by omega)]
    rw [if_neg (by omega)]
    omega

theorem ofLe_two {v : Nat} (h : v < 65536) : ofLe [BitVec.ofNat 8 v, BitVec.ofNat 8 (v / 256)] = v :=
  ofLe_leNat 2 v h

/-- A request frame decodes to its code, tag and body (R188). -/
theorem checkLinkFrame_linkFrameBytes (code : Byte) (tag : Word16) (body : List Byte) (h : body.length ≤ 1024) :
    checkLinkFrame (linkFrameBytes 1 code.toNat tag body) = .good ⟨code, tag, body⟩ := by
  set inner : List Byte := leNat 1 1 ++ leNat 1 code.toNat ++ leNat 2 tag.toNat ++ leNat 2 body.length ++ body
    with hinner
  set bytes : List Byte := 0xC5 :: (inner ++ leNat 2 (crc16 inner).toNat) with hbytes
  have hlen : inner.length = body.length + 6 := by simp [hinner]; omega
  have hfront : bytes = 0xC5 :: 1 :: code :: BitVec.ofNat 8 tag.toNat :: BitVec.ofNat 8 (tag.toNat / 256)
      :: BitVec.ofNat 8 body.length :: BitVec.ofNat 8 (body.length / 256)
      :: (body ++ leNat 2 (crc16 inner).toNat) := by
    simp [hbytes, hinner, leNat]
  have hn : ofLe ((bytes.drop 5).take 2) = body.length := by
    rw [hfront]
    exact ofLe_two (by omega)
  have htag : BitVec.ofNat 16 (ofLe ((bytes.drop 3).take 2)) = tag := by
    rw [hfront]
    refine (congrArg (BitVec.ofNat 16) (ofLe_two tag.isLt)).trans ?_
    simp
  have hbody : (bytes.drop 7).take body.length = body := by
    rw [hfront]
    exact List.take_left
  have hcovered : (bytes.drop 1).take (body.length + 6) = inner := List.take_left' hlen
  have hcrc : ofLe (bytes.drop (body.length + 7)) = (crc16 inner).toNat := by
    have : bytes.drop (body.length + 7) = leNat 2 (crc16 inner).toNat := List.drop_left' hlen
    rw [this]
    exact ofLe_leNat 2 _ (crc16 inner).isLt
  change checkLinkFrame bytes = _
  unfold checkLinkFrame
  simp only [hn, hcovered, hcrc, htag, hbody]
  rw [if_pos (by rw [hfront]; rfl), if_pos ⟨h, by simp [hbytes, hlen]⟩, if_pos trivial, if_pos (by rw [hfront]; rfl)]
  rw [hfront]
  rfl

/-- A lane frame of a kind, its checks passed, is decoded by the kind (R45). -/
theorem checkLaneFrame_of_layout (lane : Lane) (kind : Nat) {n : Nat} (hk : laneFrameLength kind = some n)
    (hk' : kind < 256) (q status : Byte) (payload : List Byte) (hp : payload.length + 5 = n) :
    let inner : List Byte := [BitVec.ofNat 8 kind, q, status] ++ payload
    checkLaneFrame lane (inner ++ leNat 2 (crc16 inner).toNat)
      = if kind = expectedKind lane then
          .wellFormed q ⟨status, payloadOf kind (inner ++ leNat 2 (crc16 inner).toNat)⟩
        else .wrongKind := by
  intro inner
  have hlen : inner.length = n - 2 := by simp [inner]; omega
  have hkind : ofLe ((inner ++ leNat 2 (crc16 inner).toNat).take 1) = kind := by
    simp [inner, ofLe]
    omega
  have hcovered : (inner ++ leNat 2 (crc16 inner).toNat).take (n - 2) = inner := List.take_left' hlen
  have hcrc : ofLe ((inner ++ leNat 2 (crc16 inner).toNat).drop (n - 2)) = (crc16 inner).toNat := by
    rw [List.drop_left' hlen]
    exact ofLe_leNat 2 _ (crc16 inner).isLt
  unfold checkLaneFrame
  simp only [hkind, hk, hcovered, hcrc]
  rw [if_pos (by simp [inner]; omega), if_pos trivial]
  rfl

/-- A field of a frame, with the bytes before it and behind it. -/
theorem signedAt_of_layout (a b : List Byte) {off n : Nat} {v : Int} (ha : a.length = off)
    (hl : -(256 : Int) ^ n ≤ 2 * v) (hu : 2 * v < (256 : Int) ^ n) :
    signedAt (a ++ (leInt n v ++ b)) off n = v := by
  subst ha
  rw [signedAt, List.drop_left, List.take_left' (leInt_length n v), signedOf_leInt n hl hu]

section
variable {d v zL zR w phi : Int} (a c : List Byte) (ha : a.length = 3)
include ha

theorem payloadOf_head {kind : Nat} (hk : kind = 1 ∨ kind = 2) (hd : -32768 ≤ d ∧ d ≤ 32767)
    (hv : -32768 ≤ v ∧ v ≤ 32767) :
    payloadOf kind (a ++ (leInt 2 d ++ leInt 2 v) ++ c) = .head d v := by
  have h3 : signedAt (a ++ (leInt 2 d ++ leInt 2 v) ++ c) 3 2 = d := by
    simpa only [List.append_assoc] using
      signedAt_of_layout a (leInt 2 v ++ c) (n := 2) (v := d) ha (by omega) (by omega)
  have h5 : signedAt (a ++ (leInt 2 d ++ leInt 2 v) ++ c) 5 2 = v := by
    simpa only [List.append_assoc] using
      signedAt_of_layout (a ++ leInt 2 d) c (n := 2) (v := v) (off := 5) (by simp [ha]) (by omega) (by omega)
  rcases hk with rfl | rfl <;> simp only [payloadOf, h3, h5]

theorem payloadOf_aux (hd : -32768 ≤ d ∧ d ≤ 32767) : payloadOf 4 (a ++ leInt 2 d ++ c) = .aux d := by
  have h3 : signedAt (a ++ leInt 2 d ++ c) 3 2 = d := by
    simpa only [List.append_assoc] using signedAt_of_layout a c (n := 2) (v := d) ha (by omega) (by omega)
  simp only [payloadOf, h3]

theorem payloadOf_inertial
    (h4 : ∀ x, x = zL ∨ x = zR ∨ x = w ∨ x = phi → -2147483648 ≤ x ∧ x ≤ 2147483647) :
    payloadOf 3 (a ++ (leInt 4 zL ++ leInt 4 zR ++ leInt 4 w ++ leInt 4 phi) ++ c)
      = .inertial zL zR w phi := by
  have field (b e : List Byte) {off : Nat} {x : Int} (hx : x = zL ∨ x = zR ∨ x = w ∨ x = phi)
      (hb : b.length = off) : signedAt (b ++ (leInt 4 x ++ e)) off 4 = x :=
    signedAt_of_layout b e (n := 4) hb (by have := h4 x hx; omega) (by have := h4 x hx; omega)
  have h3 := field a (leInt 4 zR ++ leInt 4 w ++ leInt 4 phi ++ c) (off := 3) (.inl rfl) ha
  have h7 := field (a ++ leInt 4 zL) (leInt 4 w ++ leInt 4 phi ++ c) (off := 7) (.inr (.inl rfl)) (by simp [ha])
  have h11 := field (a ++ leInt 4 zL ++ leInt 4 zR) (leInt 4 phi ++ c) (off := 11) (.inr (.inr (.inl rfl)))
    (by simp [ha])
  have h15 := field (a ++ leInt 4 zL ++ leInt 4 zR ++ leInt 4 w) c (off := 15) (.inr (.inr (.inr rfl)))
    (by simp [ha])
  simp only [List.append_assoc] at h3 h7 h11 h15
  simp only [payloadOf, List.append_assoc, h3, h7, h11, h15]

end

/-- Settles O54: the layouts above, with the payload read back field by field. -/
theorem framesDecodeAsLaidOut : Obligations.FramesDecodeAsLaidOut := by
  unfold Obligations.FramesDecodeAsLaidOut
  refine ⟨checkLinkFrame_linkFrameBytes, ?_⟩
  intro q status d v zL zR w phi hd hv h4 frame
  refine ⟨?_, ?_, ?_, ?_, ?_⟩
  · refine (checkLaneFrame_of_layout .sl0 1 rfl (by omega) q status _ (by simp)).trans ((if_pos rfl).trans ?_)
    exact congrArg (fun x => LaneCheck.wellFormed q ⟨status, x⟩) (payloadOf_head [1, q, status] _ rfl (.inl rfl) hd hv)
  · refine (checkLaneFrame_of_layout .sl1 2 rfl (by omega) q status _ (by simp)).trans ((if_pos rfl).trans ?_)
    exact congrArg (fun x => LaneCheck.wellFormed q ⟨status, x⟩) (payloadOf_head [2, q, status] _ rfl (.inr rfl) hd hv)
  · refine (checkLaneFrame_of_layout .sl2 3 rfl (by omega) q status _ (by simp)).trans ((if_pos rfl).trans ?_)
    exact congrArg (fun x => LaneCheck.wellFormed q ⟨status, x⟩) (payloadOf_inertial [3, q, status] _ rfl h4)
  · refine (checkLaneFrame_of_layout .sl3 4 rfl (by omega) q status _ (by simp)).trans ((if_pos rfl).trans ?_)
    exact congrArg (fun x => LaneCheck.wellFormed q ⟨status, x⟩) (payloadOf_aux [4, q, status] _ rfl hd)
  · exact (checkLaneFrame_of_layout .sl0 4 rfl (by omega) q status _ (by simp)).trans (if_neg (by decide))

end Sys2Proof.Machine
end

section
/-! PROOFS. Shared settings (11): Read Settings, Await Change, and a commit that succeeds. -/

namespace Sys2Proof.Machine

/-! ## Read Settings and Await Change (R177, R183) -/

theorem sectionOf_code (c : Section) : sectionOf c.code = some c := by
  cases c <;> rfl

theorem sectionOf_eq_none {n : Nat} (h : 5 < n) : sectionOf n = none := by
  obtain ⟨m, rfl⟩ := Nat.exists_eq_add_of_le' h
  rfl

/-- The one-byte field of a body of one byte. -/
theorem Request.field_first (c : Byte) (tag : Word16) (x : Byte) (b : List Byte) :
    Request.field ⟨c, tag, x :: b⟩ 0 1 = x.toNat := Request.field_byte_at c tag [] b x rfl

theorem Store.staged_eq (st : Store) (c : Section) : st.staged c = match c with
    | .calibration => st.stagedCal
    | .limits => st.stagedLim
    | _ => false := by
  cases c <;> rfl

/-- Settles O48: the section is found or not, and the Await is refused, answered or parked. -/
theorem readSettingsAndAwaitChange : Obligations.ReadSettingsAndAwaitChange := by
  unfold Obligations.ReadSettingsAndAwaitChange
  refine ⟨?read, ?await⟩
  case read =>
    intro s p tag n rest r hd
    have hfront := hd.2.2
    have hexec : exec (.readSettings p) s = .next (match sectionOf n.toNat with
        | none => s.replied p r rest .invalidField [natField 2 0]
        | some c => State.replied (s.modPort p (fun q =>
            { q with reservation := some ⟨c, s.store.generations.get c⟩ })) p r rest .ok
              (settingsFields s.store c)) := by
      change execReadSettings p s = _
      unfold execReadSettings
      rw [State.serve_of_length (code := 3) (n := 1) hd rfl rfl, Request.field_first]
      cases sectionOf n.toNat with
      | none => simp only [State.refuseField_of_front hfront]
      | some c =>
        exact congrArg _ (State.answerOk_of_front (s := s.modPort p _) (by simpa using hfront) _)
    refine ⟨fun hn => ?_, fun c hc => ?_⟩
    · rw [hexec, sectionOf_eq_none hn]
    · rw [hexec, hc, sectionOf_code]
      simp only [settingsFields, Store.generationFields, Store.staged_eq] <;> rfl
  case await =>
    intro s p tag n g rest r hd
    have hfront := hd.2.2
    have hword : r.word 1 = g := by
      have := Request.field_at (n := 4) 5 tag [n] [] rfl g.isLt
      rw [List.append_nil, List.length_singleton] at this
      rw [Request.word]
      simp only [r]
      rw [show n :: leNat 4 g.toNat = [n] ++ leNat 4 g.toNat from rfl, this, BitVec.ofNat_toNat,
        BitVec.setWidth_eq]
    have hexec : exec (.awaitChange p) s = .next (match sectionOf n.toNat with
        | none => s.replied p r rest .invalidField [natField 2 0]
        | some c =>
          if (s.ports.get p).await.isSome = true then s.replied p r rest .wrongState []
          else if s.store.generations.get c ≠ g then s.replied p r rest .ok (s.store.generationFields c)
          else (s.modPort p (fun q => { q with await := some ⟨c, g, tag⟩ })).finishRequest p) := by
      change execAwaitChange p s = _
      unfold execAwaitChange
      rw [State.serve_of_length (code := 5) hd rfl (by simp [r]), Request.field_first]
      cases sectionOf n.toNat with
      | none => simp only [State.refuseField_of_front hfront]
      | some c =>
        simp only [State.refuse_of_front hfront, State.answerOk_of_front hfront, hword]
        rfl
    refine ⟨fun hn => ?_, fun c hc => ?_⟩
    · rw [hexec, sectionOf_eq_none hn]
    · rw [hexec, hc, sectionOf_code]
      refine ⟨fun ha => ?_, fun ha hg => ?_, fun ha hg => ?_⟩
      · simp only [Option.isSome_iff_ne_none.mpr ha, if_true]
      · simp only [ha, Option.isSome_none, Bool.false_eq_true, if_false, if_pos hg]
        rfl
      · simp only [ha, Option.isSome_none, Bool.false_eq_true, if_false, hg, ne_eq, not_true_eq_false,
          State.finishRequest, State.modPort_modPort]
        simp only [State.modPort, hfront, List.tail_cons]

/-! ## What the installation of an image leaves (R180, R181) -/

theorem closeFormed_store (s : State) (k : Word32) : (s.closeFormed k).store = s.store := by
  unfold State.closeFormed
  split
  · rfl
  · exact releaseChain_store _ _

theorem closeFormedAll_store (ks : List Word32) (s : State) : (s.closeFormedAll ks).store = s.store := by
  induction ks generalizing s with
  | nil => rfl
  | cons k ks ih =>
    unfold State.closeFormedAll
    split
    · exact (ih _).trans (closeFormed_store s k)
    · exact ih s

theorem State.putCalibration_store (s : State) : s.putCalibration.store = { s.store with
    installedCal := s.store.committed.calibration, stagedCal := false } := by
  unfold State.putCalibration
  dsimp only
  rw [closeFormedAll_store]
  simp [State.installCalibration]

theorem State.putCalibration_frame (s : State) : State.SetFrame s s.putCalibration :=
  (State.SetFrame.ofInstall s _).trans (State.SetFrame.ofFormedAll _ _)

section
variable (s : State) (c : Section) (before : Images)

theorem State.handImage_store : (s.handImage c before).store =
    if c = .calibration then
      if s.runActive = true then { s.store with stagedCal := true }
      else { s.store with installedCal := s.store.committed.calibration, stagedCal := false }
    else if c = .limits then
      if s.runActive = true then { s.store with stagedLim := true }
      else { s.store with installedLim := s.store.committed.limits }
    else s.store := by
  unfold State.handImage
  cases c with
  | access | odometry => rfl
  | calibration =>
    dsimp only
    rw [if_pos rfl]
    split
    · rfl
    · exact s.putCalibration_store
  | limits =>
    simp only [reduceCtorEq, if_false, if_true]
    split <;> rfl
  | sampling | marking => dsimp only; split <;> rfl

theorem State.handImage_tach : (s.handImage c before).tach =
    if c = .sampling ∧ s.store.committed.sampling.rate ≠ before.sampling.rate
      then { s.tach with rateChanged := true } else s.tach := by
  unfold State.handImage
  cases c with
  | calibration =>
    dsimp only
    split
    · rfl
    · exact s.putCalibration_frame.tach
  | sampling =>
    dsimp only
    split
    · next h => simp [h]
    · next h => simp [h]
  | limits | marking => dsimp only; split <;> rfl
  | access | odometry => rfl

theorem State.handImage_discards (h : c = .marking) (hb : before.marking.enable = true)
    (ha : s.store.committed.marking.enable = false) :
    (s.handImage c before).marking = s.marking.discardAll := by
  subst h
  simp [State.handImage, hb, ha]

theorem State.handImage_keepsMarking
    (h : c ≠ .marking ∨ s.store.committed.marking.enable = true ∨ before.marking.enable = false) :
    (s.handImage c before).marking = s.marking := by
  unfold State.handImage
  cases c with
  | calibration =>
    dsimp only
    split
    · rfl
    · exact s.putCalibration_frame.marking
  | marking =>
    dsimp only
    rw [if_neg]
    rcases h with h | h | h
    · exact absurd rfl h
    · simp [h]
    · simp [h]
  | limits | sampling => dsimp only; split <;> rfl
  | access | odometry => rfl

/-- Only a CALIBRATION image installed at once reaches the ports, the lanes, the sets and the points. -/
theorem State.handImage_quiet (h : c ≠ .calibration ∨ s.runActive = true) :
    (s.handImage c before).ports = s.ports ∧ (s.handImage c before).lanes = s.lanes
      ∧ (s.handImage c before).resampler = s.resampler ∧ (s.handImage c before).base = s.base
      ∧ (s.handImage c before).geo = s.geo := by
  unfold State.handImage
  cases c with
  | calibration =>
    dsimp only
    rw [if_pos (h.resolve_left (not_not.mpr rfl))]
    exact ⟨rfl, rfl, rfl, rfl, rfl⟩
  | sampling | limits | marking => dsimp only; split <;> exact ⟨rfl, rfl, rfl, rfl, rfl⟩
  | access | odometry => exact ⟨rfl, rfl, rfl, rfl, rfl⟩

end

/-- Every port has the same reservation and the same parked Await. -/
def State.sameHoldings (s t : State) : Prop :=
  ∀ k, (t.ports.get k).reservation = (s.ports.get k).reservation
    ∧ (t.ports.get k).await = (s.ports.get k).await

theorem State.sameHoldings.closing : State.ClosingRel State.sameHoldings where
  refl _ _ := ⟨rfl, rfl⟩
  trans h h' k := ⟨(h' k).1.trans (h k).1, (h' k).2.trans (h k).2⟩
  lanes _ _ _ := ⟨rfl, rfl⟩
  image _ _ _ _ := ⟨rfl, rfl⟩
  offer s n k := by simp [State.offer]
  handOver _ _ _ := ⟨rfl, rfl⟩

theorem State.handImage_sameHoldings (s : State) (c : Section) (before : Images) :
    s.sameHoldings (s.handImage c before) := by
  unfold State.handImage
  cases c with
  | calibration =>
    dsimp only
    split
    · exact fun _ => ⟨rfl, rfl⟩
    · exact State.sameHoldings.closing.ofPut s
  | sampling | limits | marking => dsimp only; split <;> exact fun _ => ⟨rfl, rfl⟩
  | access | odometry => exact fun _ => ⟨rfl, rfl⟩

/-! ## A commit that succeeds (R180, R183) -/

/-- A section whose image is staged is refused (R179). -/
theorem State.staged_of_commitRefusal {s : State} {p : Port} {sec : Section} {v : List Int}
    (h : s.commitRefusal p sec v = none) : s.store.staged sec = false := by
  unfold State.commitRefusal at h
  dsimp only at h
  iterate 3 rw [ite_eq_iff, or_iff_right (by simp)] at h; replace h := h.2
  split at h
  · cases h
  · next hstaged => simpa using hstaged

theorem PortState.dropReservation_eq_some_iff (q : PortState) (sec : Section) (x : Reservation) :
    (q.dropReservation sec).reservation = some x ↔ q.reservation = some x ∧ x.sec ≠ sec := by
  refine ⟨PortState.dropReservation_eq_some, fun ⟨hx, hne⟩ => ?_⟩
  unfold PortState.dropReservation
  rw [hx]
  simp [hne, hx]

theorem PortState.dropReservation_await (q : PortState) (sec : Section) :
    (q.dropReservation sec).await = q.await := by
  unfold PortState.dropReservation
  split
  · rfl
  · split <;> rfl

theorem PortState.answerAwait_await (q : PortState) (sec : Section) (fs : List Field) (x : ParkedAwait) :
    (q.answerAwait sec fs).await = some x ↔ q.await = some x ∧ x.sec ≠ sec := by
  unfold PortState.answerAwait
  split
  · next h => simp [h]
  · next a ha =>
    split
    · next hs => simp only [PortState.respond_await, ha, Option.some.injEq, reduceCtorEq, false_iff]; grind
    · next hs => simp only [ha, Option.some.injEq]; grind

theorem PortState.answerAwait_reservation (q : PortState) (sec : Section) (fs : List Field) :
    (q.answerAwait sec fs).reservation = q.reservation := by
  unfold PortState.answerAwait
  split
  · rfl
  · split <;> simp

theorem execCommitSettings_of_pass {s : State} {p : Port} {tag : Word16} {n : Byte} {image : List Byte}
    {c : Section} {rest : List Request} (hd : s.canDispatch p ⟨4, tag, n :: image⟩ rest) (hn : n.toNat = c.code)
    (hlen : image.length = imageLength c)
    (hpass : s.commitRefusal p c (decodeSlots (sectionLayout c) image) = none) :
    exec (.commitSettings p) s =
      let done := s.commitImage c (decodeSlots (sectionLayout c) image)
      .next (done.answerOk p ⟨4, tag, n :: image⟩ (done.store.generationFields c)) := by
  have hfront : s.frontRequest p 4 = some ⟨4, tag, n :: image⟩ := by
    rw [State.frontRequest_of_canDispatch hd]
    rfl
  have hbody : (n :: image).length = 1 + imageLength c := by simp [hlen, Nat.add_comm]
  change execCommitSettings p s = _
  unfold execCommitSettings
  rw [hfront]
  simp only [Request.field_first, hn, sectionOf_code]
  rw [if_neg (by simp), if_pos hbody]
  unfold State.commitSection
  simp only [List.drop_one, List.tail_cons, hpass]

/-- The ports after a commit: each parked Await on the section answered, and then the request (R180, R183). -/
theorem State.committed_ports (s : State) (p : Port) (r : Request) (c : Section) (v : List Int) (k : Port) :
    let s2 := State.handImage { s with
      store := s.store.commit c v, ports := s.ports.map (fun q => q.dropReservation c) } c s.store.committed
    let fs := [natField 1 c.code, natField 4 (s.store.generations.get c + 1).toNat]
    (((s.commitImage c v).answerOk p r ((s.commitImage c v).store.generationFields c)).ports.get k)
      = let q1 := (s2.ports.get k).answerAwait c fs
        if k = p then { q1 with requests := q1.requests.tail }.respond r.code r.tag .ok fs else q1 := by
  intro s2 fs
  have hfs : (s.commitImage c v).store.generationFields c = fs := by
    rw [Store.generationFields, State.commitImage_generations, PerSection.get_set_same]
  have hdone : (s.commitImage c v).ports = s2.ports.map (fun q => q.answerAwait c fs) := by
    rw [← hfs]
    rfl
  rw [hfs, State.answerOk, State.answer, State.finishRequest, State.modPort_modPort]
  by_cases hk : k = p
  · rw [hk, State.modPort_get_same, hdone, PerPort.get_map, if_pos rfl]
  · rw [State.modPort_get_ne _ hk, hdone, PerPort.get_map, if_neg hk]

theorem Store.withCal_same {st : Store} (h : st.stagedCal = false) {x : CalibrationImage}
    (hx : st.installedCal = x) : { st with installedCal := x, stagedCal := false } = st := by
  cases st
  cases h
  cases hx
  rfl

/-- Settles O50: the generation and the image are the commit's, the rest is what the installation leaves, and
the Awaits and the request are answered after it. -/
theorem commitSucceeds : Obligations.CommitSucceeds := by
  unfold Obligations.CommitSucceeds
  intro s p tag n image c rest r hd hn hlen v hpass active fields dropped answered
  set s1 : State := { s with
    store := s.store.commit c v, ports := s.ports.map (fun q => q.dropReservation c) } with hs1
  set s2 := s1.handImage c s.store.committed with hs2
  set t := (s.commitImage c v).answerOk p r ((s.commitImage c v).store.generationFields c) with ht
  have hexec : exec (.commitSettings p) s = .next t := execCommitSettings_of_pass hd hn hlen hpass
  have hanswered (q : PortState) (k : Port) : answered q k =
      let q1 := q.answerAwait c fields
      if k = p then { q1 with requests := q1.requests.tail }.respond 4 tag .ok fields else q1 := by
    simp only [answered, PortState.answerAwait]
    cases q.await <;> rfl
  have hports (k : Port) : t.ports.get k = answered (s2.ports.get k) k :=
    (s.committed_ports p r c v k).trans (hanswered _ k).symm
  have hactive : s1.runActive = true ↔ active := by simp [State.runActive, s1, active]
  have hstaged := State.staged_of_commitRefusal hpass
  have hstore := s1.handImage_store c s.store.committed
  have hdropped (k : Port) : s1.ports.get k = dropped k := PerPort.get_map _ _ _
  have hhold (k : Port) : (t.ports.get k).reservation = (dropped k).reservation
      ∧ ∀ x, (t.ports.get k).await = some x ↔ (s.ports.get k).await = some x ∧ x.sec ≠ c := by
    obtain ⟨hres, haw⟩ := State.handImage_sameHoldings s1 c s.store.committed k
    rw [hdropped] at hres haw
    have hawait : (dropped k).await = (s.ports.get k).await := PortState.dropReservation_await _ _
    rw [hports, hanswered, ← hres, ← hawait, ← haw]
    dsimp only
    split
    · simp only [PortState.respond_reservation, PortState.respond_await, PortState.answerAwait_reservation]
      exact ⟨rfl, PortState.answerAwait_await _ _ _⟩
    · exact ⟨PortState.answerAwait_reservation _ _ _, PortState.answerAwait_await _ _ _⟩
  have hframe : s2 = { s2 with pending := s.pending, time := s.time, strobe := s.strobe, exc := s.exc
                               run := s.run, ring := s.ring, resetPending := s.resetPending } := by
    obtain ⟨_, _, _, _, _, _, _, _, _, _, _, hs⟩ := s1.handImage_eq c s.store.committed
    rw [hs2, hs]
  have hcommitted (sec : Section) (hc : c = sec) : s1.store.committed = s.store.committed.replace sec v :=
    hc ▸ rfl
  obtain ⟨ports, ht2⟩ : ∃ ports, t = { s2 with ports := ports } := ⟨_, rfl⟩
  have htach := s1.handImage_tach c s.store.committed
  have hdiscard := s1.handImage_discards c s.store.committed
  have hkeep := s1.handImage_keepsMarking c s.store.committed
  have hquiet := s1.handImage_quiet c s.store.committed
  have hgen := s.commitImage_generations c v
  have hcom := s.commitImage_committed c v
  refine ⟨t, hexec, hgen, hcom, ?_⟩
  clear_value t
  clear hexec ht hgen hcom
  rw [← hs2] at hstore htach hdiscard hkeep hquiet
  subst ht2
  dsimp only
  refine ⟨fun hc => ?cal, fun hc ha => ?calActive,
    fun hc ha => ?calIdle, fun hc => ?lim, fun hc ha => ?limActive, fun hc ha => ?limIdle, fun hc hv hb => ?discard,
    fun h => ?keep, fun k x => ?reservation, fun k x => (hhold k).2 x, fun h => ?quiet, fun hc ha => ?installs, ?tach, ?rest⟩
  case reservation =>
    dsimp only at hhold
    rw [(hhold k).1, PortState.dropReservation_eq_some_iff]
  case tach =>
    rw [htach]
    refine if_congr (and_congr_right fun hc => ?_) rfl rfl
    rw [hcommitted _ hc]
    rfl
  case discard => exact hdiscard hc hb (by rw [hcommitted _ hc]; exact hv)
  case keep =>
    refine hkeep ?_
    by_cases hm : c = .marking
    · exact .inr ((h.resolve_left (not_not.mpr hm)).imp_left fun hv => by rw [hcommitted _ hm]; exact hv)
    · exact .inl hm
  case quiet =>
    obtain ⟨hp, hl, hres, hb, hg⟩ := hquiet (h.imp_right hactive.mpr)
    exact ⟨fun k => (hports k).trans (by rw [← hdropped k, hp]), hl, hres, hb, hg⟩
  case rest =>
    rw [hframe]
    exact ⟨rfl, rfl, rfl, rfl, rfl, rfl, rfl⟩
  case cal =>
    rw [hstore, if_neg hc]
    split
    · split <;> exact ⟨rfl, rfl⟩
    · exact ⟨rfl, rfl⟩
  case calActive =>
    rw [hstore, if_pos hc, if_pos (hactive.mpr ha)]
    exact ⟨rfl, rfl⟩
  case calIdle =>
    rw [hstore, if_pos hc, if_neg (mt hactive.mp ha), hcommitted _ hc]
    exact ⟨rfl, rfl⟩
  case lim =>
    rw [hstore, if_neg hc]
    split
    · split <;> exact ⟨rfl, rfl⟩
    · exact ⟨rfl, rfl⟩
  case limActive =>
    rw [hstore, if_neg (by simp [hc]), if_pos hc, if_pos (hactive.mpr ha)]
    exact ⟨rfl, rfl⟩
  case limIdle =>
    rw [hstore, if_neg (by simp [hc]), if_pos hc, if_neg (mt hactive.mp ha), hcommitted _ hc]
    exact ⟨rfl, by rw [hc] at hstaged; exact hstaged⟩
  case installs =>
    have hidle := mt hactive.mp ha
    have hcal : s1.store.committed.calibration = calibrationOf v := by rw [hcommitted _ hc]; rfl
    have hput : s2 = s1.putCalibration := by
      rw [hs2, hc]
      exact if_neg hidle
    have hbase : { s with
        store := { s2.store with installedCal := s.store.installedCal }
        ports := ⟨dropped .p0, dropped .p1, dropped .p2⟩ } = s1 := by
      rw [hstore, if_pos hc, if_neg hidle]
      have hsame := Store.withCal_same (st := s1.store) (x := s.store.installedCal)
        (by rw [hc] at hstaged; exact hstaged) rfl
      exact congrArg (fun st => { s1 with store := st }) hsame
    refine ⟨s1.installCalibration (calibrationOf v), s2, ?_, ?_, rfl, hports⟩
    · rw [hbase]
      exact installCalibration_installs s1 _
    · rw [← completeStrobes_eq, hput, State.putCalibration, hcal]
      exact closeFormedAll_closesEach _ _ _ (by simp [State.installCalibration])

end Sys2Proof.Machine
end

section
/-! PROOFS. Shared settings (11, 13.6): which fields of an image are bad, the checks of a commit in their
order, and the round trip of a valid image. -/

namespace Sys2Proof.Machine

/-! ## The first bad field of an image that is not LIMITS (R176) -/

theorem firstFailing_eq_some_iff {k j : Nat} {ts : List (Int → Bool)} {vs : List Int} :
    firstFailing k ts vs = some j ↔ ∃ i t x, j = k + i ∧ ts[i]? = some t ∧ vs[i]? = some x ∧ t x = false
      ∧ ∀ m t x, m < i → ts[m]? = some t → vs[m]? = some x → t x = true := by
  induction ts generalizing k vs with
  | nil => simp [firstFailing]
  | cons t ts ih =>
    cases vs with
    | nil => simp [firstFailing]
    | cons v vs =>
      unfold firstFailing
      cases hv : t v with
      | true =>
        rw [if_pos rfl, ih]
        constructor
        · rintro ⟨i, u, x, rfl, ht, hx, hf, hbefore⟩
          refine ⟨i + 1, u, x, by omega, by simpa using ht, by simpa using hx, hf, ?_⟩
          intro m u' x' hm hu hx'
          cases m with
          | zero =>
            obtain rfl : t = u' := by simpa using hu
            obtain rfl : v = x' := by simpa using hx'
            exact hv
          | succ m => exact hbefore m u' x' (by omega) (by simpa using hu) (by simpa using hx')
        · rintro ⟨i, u, x, rfl, ht, hx, hf, hbefore⟩
          cases i with
          | zero =>
            obtain rfl : t = u := by simpa using ht
            obtain rfl : v = x := by simpa using hx
            rw [hv] at hf
            cases hf
          | succ i =>
            refine ⟨i, u, x, by omega, by simpa using ht, by simpa using hx, hf, ?_⟩
            intro m u' x' hm hu hx'
            exact hbefore (m + 1) u' x' (by omega) (by simpa using hu) (by simpa using hx')
      | false =>
        rw [if_neg (by simp)]
        constructor
        · intro h
          obtain rfl : k = j := by simpa using h
          exact ⟨0, t, v, rfl, rfl, rfl, hv, fun m _ _ hm => absurd hm (by omega)⟩
        · rintro ⟨i, u, x, rfl, ht, hx, hf, hbefore⟩
          cases i with
          | zero => rfl
          | succ i =>
            have := hbefore 0 t v (by omega) rfl rfl
            rw [hv] at this
            cases this

theorem firstFailing_eq_none_iff {k : Nat} {ts : List (Int → Bool)} {vs : List Int} :
    firstFailing k ts vs = none ↔ ∀ (i : Nat) (t : Int → Bool) x, ts[i]? = some t → vs[i]? = some x →
      t x = true := by
  refine ⟨fun h i t x ht hx => firstFailing_eq_none h ht hx, ?_⟩
  intro h
  cases hf : firstFailing k ts vs with
  | none => rfl
  | some j =>
    obtain ⟨i, t, x, -, ht, hx, hfail, -⟩ := firstFailing_eq_some_iff.mp hf
    rw [h i t x ht hx] at hfail
    cases hfail

/-- The tests of a section say what the settings tables allow (R176). -/
theorem fieldTests_iff_fieldOk {c : Section} {i : Nat} {t : Int → Bool} (h : (fieldTests c)[i]? = some t)
    (x : Int) : t x = true ↔ fieldOk c i x := by
  have hi : i < (fieldTests c).length := (List.getElem?_eq_some_iff.mp h).1
  cases c with
  | access | limits => cases hi
  | calibration =>
    replace hi : i < 21 := hi
    interval_cases i <;> cases h <;> simp [fieldOk, inRange, isPolarity] <;> omega
  | sampling =>
    replace hi : i < 9 := hi
    interval_cases i <;> cases h <;> simp [fieldOk, inRange, or_assoc]
  | odometry =>
    replace hi : i < 11 := hi
    interval_cases i <;> cases h <;> simp [fieldOk, inRange] <;> omega
  | marking =>
    replace hi : i < 5 := hi
    interval_cases i <;> cases h <;> simp [fieldOk, inRange] <;> omega

/-- A field is bad when its section has a test of it that fails. -/
theorem not_fieldOk_iff {c : Section} (hc : c ≠ .limits) {i : Nat} (hi : i < (sectionLayout c).length)
    (x : Int) : ¬ fieldOk c i x ↔ ∃ t, (fieldTests c)[i]? = some t ∧ t x = false := by
  have hlen (hacc : c ≠ .access) : (fieldTests c).length = (sectionLayout c).length := by
    cases c with
    | access => exact absurd rfl hacc
    | limits => exact absurd rfl hc
    | calibration | sampling | odometry | marking => rfl
  by_cases hacc : c = .access
  · subst hacc
    simp [fieldOk, fieldTests]
  · have hi' : i < (fieldTests c).length := by rw [hlen hacc]; exact hi
    have ht : (fieldTests c)[i]? = some (fieldTests c)[i] := List.getElem?_eq_getElem hi'
    rw [← fieldTests_iff_fieldOk ht x, ht]
    simp

theorem firstBadField_of_ne_limits {c : Section} (hc : c ≠ .limits) (v : List Int) :
    firstBadField c v = firstFailing 0 (fieldTests c) v := by
  cases c with
  | limits => exact absurd rfl hc
  | access | calibration | sampling | odometry | marking => rfl

/-- The first bad field of an image but LIMITS is the lowest index at which a field is not admitted (R176). -/
theorem firstBadField_eq_some_iff {c : Section} (hc : c ≠ .limits) {v : List Int}
    (hlen : v.length = (sectionLayout c).length) (k : Nat) : firstBadField c v = some k ↔
      (∃ x, v[k]? = some x ∧ ¬ fieldOk c k x) ∧ ∀ i x, i < k → v[i]? = some x → fieldOk c i x := by
  rw [firstBadField_of_ne_limits hc, firstFailing_eq_some_iff]
  constructor
  · rintro ⟨i, t, x, hk, ht, hx, hfail, hbefore⟩
    obtain rfl : k = i := by omega
    have hi : k < v.length := (List.getElem?_eq_some_iff.mp hx).1
    refine ⟨⟨x, hx, (not_fieldOk_iff hc (hlen ▸ hi) x).mpr ⟨t, ht, hfail⟩⟩, ?_⟩
    intro m y hm hy
    by_contra hbad
    obtain ⟨u, hu, hfalse⟩ := (not_fieldOk_iff hc (by omega) y).mp hbad
    rw [hbefore m u y hm hu hy] at hfalse
    cases hfalse
  · rintro ⟨⟨x, hx, hbad⟩, hbefore⟩
    have hi : k < v.length := (List.getElem?_eq_some_iff.mp hx).1
    obtain ⟨t, ht, hfail⟩ := (not_fieldOk_iff hc (hlen ▸ hi) x).mp hbad
    refine ⟨k, t, x, by omega, ht, hx, hfail, ?_⟩
    intro m u y hm hu hy
    exact (fieldTests_iff_fieldOk hu y).mpr (hbefore m y hm hy)

theorem firstBadField_eq_none_iff {c : Section} (hc : c ≠ .limits) {v : List Int}
    (hlen : v.length = (sectionLayout c).length) :
    firstBadField c v = none ↔ ∀ i x, v[i]? = some x → fieldOk c i x := by
  rw [firstBadField_of_ne_limits hc, firstFailing_eq_none_iff]
  constructor
  · intro h i x hx
    have hi : i < v.length := (List.getElem?_eq_some_iff.mp hx).1
    by_contra hbad
    obtain ⟨u, hu, hfalse⟩ := (not_fieldOk_iff hc (hlen ▸ hi) x).mp hbad
    rw [h i u x hu hx] at hfalse
    cases hfalse
  · exact fun h i t x ht hx => (fieldTests_iff_fieldOk ht x).mpr (h i x hx)

/-! ## The first bad field of a LIMITS image (R99, R100) -/

theorem thresholdIndex_lt {c q n : Nat} (e : Sense) (hc : c < 8) (hq : q < 4) (hn : 1 ≤ n) (hn3 : n ≤ 3) :
    thresholdIndex c q e n < 192 := by
  unfold thresholdIndex
  cases e <;> simp only [Sense.code] <;> omega

theorem limitsOf_threshold (v : List Int) {c q n : Nat} (e : Sense) (hc : c < 8) (hq : q < 4) (hn : 1 ≤ n)
    (hn3 : n ≤ 3) : (limitsOf v).threshold c q e n = thresholdAt v (thresholdIndex c q e n) := by
  have hi := thresholdIndex_lt e hc hq hn hn3
  unfold LimitsImage.threshold limitsOf thresholdAt
  generalize thresholdIndex c q e n = i at hi
  rw [List.getD_eq_getElem?_getD, List.getD_eq_getElem?_getD, List.getElem?_map, List.getElem?_take_of_lt hi]
  cases v[i]? <;> rfl

theorem limitsOf_paramsOf (v : List Int) {c : Nat} (hc : c < 8) : (limitsOf v).paramsOf c = paramsOf v c := by
  interval_cases c <;> rfl

/-- Settles O21: the image's threshold list is the first 192 fields, and its parameters are read behind them. -/
theorem limitFieldIndices : Obligations.LimitFieldIndices := by
  unfold Obligations.LimitFieldIndices
  intro v c q n e hlen hc hq hn hn3 i field
  have hi : i < 192 := by
    have := thresholdIndex_lt e hc hq hn hn3
    cases e <;> exact this
  refine ⟨hi, ?_, limitsOf_paramsOf v hc⟩
  have hfield : field i = v.getD i (-32768) := by
    have : v[i]? = some v[i] := List.getElem?_eq_getElem (by omega)
    simp [field, List.getD, this]
  rw [hfield, limitsOf_threshold v e hc hq hn hn3]
  cases e <;> rfl

/-- Whether the field `i` of a LIMITS image's values is bad, a threshold or a parameter (R100). -/
def badLimitField (v : List Int) (i : Nat) : Bool := if i < 192 then badThreshold v i else badParameter v i

theorem firstBadLimit_succ (v : List Int) (i n : Nat) : firstBadLimit v i (n + 1) =
    if badLimitField v i then some i else firstBadLimit v (i + 1) n := rfl

theorem firstBadLimit_eq_some_iff (v : List Int) (i n k : Nat) : firstBadLimit v i n = some k ↔
    i ≤ k ∧ k < i + n ∧ badLimitField v k = true ∧ ∀ j, i ≤ j → j < k → badLimitField v j = false := by
  induction n generalizing i with
  | zero => exact ⟨fun h => (nomatch h), fun ⟨_, _, _⟩ => by omega⟩
  | succ n ih =>
    rw [firstBadLimit_succ]
    cases hbad : badLimitField v i with
    | true =>
      rw [if_pos rfl]
      constructor
      · intro h
        obtain rfl : i = k := Option.some.inj h
        exact ⟨le_rfl, by omega, hbad, fun j h1 h2 => absurd h2 (by omega)⟩
      · rintro ⟨h1, -, -, h4⟩
        obtain rfl | hlt := h1.eq_or_lt
        · rfl
        · rw [h4 i le_rfl hlt] at hbad
          cases hbad
    | false =>
      rw [if_neg (by simp), ih]
      constructor
      · rintro ⟨h1, h2, h3, h4⟩
        refine ⟨by omega, by omega, h3, fun j hj hk => ?_⟩
        obtain rfl | hlt := hj.eq_or_lt
        · exact hbad
        · exact h4 j hlt hk
      · rintro ⟨h1, h2, h3, h4⟩
        obtain rfl | hlt := h1.eq_or_lt
        · rw [h3] at hbad
          cases hbad
        · exact ⟨hlt, by omega, h3, fun j hj hk => h4 j (by omega) hk⟩

theorem firstBadLimit_eq_none_iff (v : List Int) (i n : Nat) : firstBadLimit v i n = none ↔
    ∀ j, i ≤ j → j < i + n → badLimitField v j = false := by
  induction n generalizing i with
  | zero => exact ⟨fun _ j h1 h2 => absurd h2 (by omega), fun _ => rfl⟩
  | succ n ih =>
    rw [firstBadLimit_succ]
    cases hbad : badLimitField v i with
    | true =>
      rw [if_pos rfl]
      refine ⟨fun h => (nomatch h), fun h => ?_⟩
      rw [h i le_rfl (by omega)] at hbad
      cases hbad
    | false =>
      rw [if_neg (by simp), ih]
      constructor
      · intro h j h1 h2
        obtain rfl | hlt := h1.eq_or_lt
        · exact hbad
        · exact h j hlt (by omega)
      · exact fun h j h1 h2 => h j (by omega) (by omega)

/-- The threshold just before another in its class and sense (R100), by the level. -/
theorem previousThreshold_index (v : List Int) (c q : Nat) (e : Sense) :
    previousThreshold v (thresholdIndex c q e 1) = none
    ∧ previousThreshold v (thresholdIndex c q e 2) = thresholdAt v (thresholdIndex c q e 1)
    ∧ previousThreshold v (thresholdIndex c q e 3)
      = (thresholdAt v (thresholdIndex c q e 2)).or (thresholdAt v (thresholdIndex c q e 1)) := by
  unfold previousThreshold thresholdIndex
  generalize (c * 4 + q) * 2 + e.code = b
  refine ⟨if_pos (by omega), ?_, ?_⟩
  · rw [if_neg (by omega), if_pos (by omega)]
    rfl
  · rw [if_neg (by omega), if_neg (by omega)]
    have h1 : b * 3 + (3 - 1) - 1 = b * 3 + (2 - 1) := by omega
    have h2 : b * 3 + (3 - 1) - 2 = b * 3 + (1 - 1) := by omega
    rw [h1, h2]
    cases thresholdAt v (b * 3 + (2 - 1)) <;> rfl

theorem previousThreshold_eq_some_iff (v : List Int) (c q : Nat) (e : Sense) {n : Nat} (hn : 1 ≤ n) (hn3 : n ≤ 3)
    (u : Int) : previousThreshold v (thresholdIndex c q e n) = some u ↔
      ∃ m, 1 ≤ m ∧ m < n ∧ thresholdAt v (thresholdIndex c q e m) = some u
        ∧ ∀ j, m < j → j < n → thresholdAt v (thresholdIndex c q e j) = none := by
  obtain ⟨h1, h2, h3⟩ := previousThreshold_index v c q e
  generalize hT : (fun m => thresholdAt v (thresholdIndex c q e m)) = T at *
  have hat (m : Nat) : thresholdAt v (thresholdIndex c q e m) = T m := congrFun hT m
  simp only [hat] at *
  interval_cases n
  · rw [h1]
    exact ⟨fun h => (nomatch h), fun ⟨m, _, _, _⟩ => by omega⟩
  · rw [h2]
    constructor
    · exact fun h => ⟨1, le_rfl, by omega, h, fun j _ _ => by omega⟩
    · rintro ⟨m, _, _, hm, -⟩
      obtain rfl : m = 1 := by omega
      exact hm
  · rw [h3]
    constructor
    · intro h
      cases hT2 : T 2 with
      | some w =>
        rw [hT2] at h
        exact ⟨2, by omega, by omega, hT2.trans h, fun j _ _ => by omega⟩
      | none =>
        rw [hT2] at h
        refine ⟨1, le_rfl, by omega, h, fun j _ _ => ?_⟩
        obtain rfl : j = 2 := by omega
        exact hT2
    · rintro ⟨m, _, _, hm, hbetween⟩
      obtain rfl | rfl : m = 1 ∨ m = 2 := by omega
      · rw [hbetween 2 (by omega) (by omega), hm]
        rfl
      · rw [hm]
        rfl

/-- A threshold is bad against the one before it, or, the first of the lower sense, against that of the upper
(R100). -/
theorem badThreshold_index (v : List Int) {c q n : Nat} (e : Sense) (hn : 1 ≤ n) (hn3 : n ≤ 3) :
    badThreshold v (thresholdIndex c q e n) = true ↔
      ∃ t, thresholdAt v (thresholdIndex c q e n) = some t
        ∧ ((∃ u, previousThreshold v (thresholdIndex c q e n) = some u
            ∧ match e with | .upper => t < u | .lower => u < t)
          ∨ (e = .lower ∧ n = 1 ∧ ∃ u, thresholdAt v (thresholdIndex c q .upper 1) = some u ∧ u ≤ t)) := by
  have hsense : (thresholdIndex c q e n / 3 % 2 == 1) = (e == .lower) := by
    unfold thresholdIndex
    have : ((c * 4 + q) * 2 + e.code) * 3 + (n - 1) = (n - 1) + 3 * ((c * 4 + q) * 2 + e.code) := by ring
    rw [this, Nat.add_mul_div_left _ _ (by omega), Nat.div_eq_of_lt (by omega)]
    cases e <;> simp only [Sense.code] <;> simp
  have hlevel : (thresholdIndex c q e n % 3 == 0) = (n == 1) := by
    unfold thresholdIndex
    rw [Bool.eq_iff_iff, beq_iff_eq, beq_iff_eq]
    omega
  unfold badThreshold
  rw [hsense, hlevel]
  cases thresholdAt v (thresholdIndex c q e n) with
  | none => simp
  | some t =>
    cases e with
    | upper => cases previousThreshold v (thresholdIndex c q .upper n) <;> simp
    | lower =>
      by_cases h1 : n = 1
      · subst h1
        have hupper : thresholdIndex c q .lower 1 - 3 = thresholdIndex c q .upper 1 := by
          simp only [thresholdIndex, Sense.code]
          omega
        rw [hupper]
        cases previousThreshold v (thresholdIndex c q .lower 1)
          <;> cases thresholdAt v (thresholdIndex c q .upper 1) <;> simp
      · cases previousThreshold v (thresholdIndex c q .lower n) <;> simp [h1]

/-- An unsigned field of decoded bytes is not negative. -/
theorem decodeSlots_nonneg {ts : List Slot} {i : Nat} {n : Nat} (h : ts[i]? = some (.u n)) (bytes : List Byte) :
    0 ≤ (decodeSlots ts bytes).getD i 0 := by
  induction ts generalizing i bytes with
  | nil => simp at h
  | cons t ts ih =>
    cases i with
    | zero =>
      obtain rfl : t = .u n := by simpa using h
      exact Int.natCast_nonneg _
    | succ i => exact ih (by simpa using h) _

/-- The parameters of a LIMITS image are unsigned fields (R98). -/
theorem decodeSlots_limits_nonneg (bytes : List Byte) {i : Nat} (h : 192 ≤ i) (hi : i < 224) :
    0 ≤ (decodeSlots (sectionLayout .limits) bytes).getD i 0 := by
  have hslot : ∃ n, (sectionLayout .limits)[i]? = some (.u n) := by
    have : ∀ j < 32, ∃ n ∈ [1, 2], (sectionLayout .limits)[192 + j]? = some (.u n) := by decide
    obtain ⟨n, -, hn⟩ := this (i - 192) (by omega)
    exact ⟨n, by rwa [Nat.add_sub_cancel' h] at hn⟩
  obtain ⟨n, hn⟩ := hslot
  exact decodeSlots_nonneg hn bytes

/-- Whether a threshold of a LIMITS image is bad, in the image's own terms (R100). -/
def LimitsImage.badAt (l : LimitsImage) (c q : Nat) (e : Sense) (n : Nat) : Prop :=
  ∃ t, l.threshold c q e n = some t
    ∧ ((∃ m u, 1 ≤ m ∧ m < n ∧ l.threshold c q e m = some u
          ∧ (∀ j, m < j → j < n → l.threshold c q e j = none)
          ∧ (match e with | .upper => t < u | .lower => u < t))
      ∨ (e = .lower ∧ n = 1 ∧ ∃ u, l.threshold c q .upper 1 = some u ∧ u ≤ t))

theorem badThreshold_iff_badAt (v : List Int) {c q n : Nat} (e : Sense) (hc : c < 8) (hq : q < 4) (hn : 1 ≤ n)
    (hn3 : n ≤ 3) : badThreshold v (thresholdIndex c q e n) = true ↔ (limitsOf v).badAt c q e n := by
  rw [badThreshold_index v e hn hn3]
  refine exists_congr fun t => ?_
  rw [limitsOf_threshold v e hc hq hn hn3, limitsOf_threshold v .upper hc hq le_rfl (by omega)]
  refine and_congr_right fun _ => or_congr_left ?_
  constructor
  · rintro ⟨u, hu, hcmp⟩
    obtain ⟨m, hm, hmn, hat, hbetween⟩ := (previousThreshold_eq_some_iff v c q e hn hn3 u).mp hu
    refine ⟨m, u, hm, hmn, (limitsOf_threshold v e hc hq hm (by omega)).trans hat, fun j h1 h2 => ?_, hcmp⟩
    exact (limitsOf_threshold v e hc hq (by omega) (by omega)).trans (hbetween j h1 h2)
  · rintro ⟨m, u, hm, hmn, hat, hbetween, hcmp⟩
    refine ⟨u, (previousThreshold_eq_some_iff v c q e hn hn3 u).mpr ⟨m, hm, hmn, ?_, fun j h1 h2 => ?_⟩, hcmp⟩
    · exact (limitsOf_threshold v e hc hq hm (by omega)).symm.trans hat
    · exact (limitsOf_threshold v e hc hq (by omega) (by omega)).symm.trans (hbetween j h1 h2)

/-- Every threshold field is that of a channel, class, sense and level (R99). -/
theorem exists_thresholdIndex {i : Nat} (hi : i < 192) :
    ∃ c q e n, c < 8 ∧ q < 4 ∧ 1 ≤ n ∧ n ≤ 3 ∧ i = thresholdIndex c q e n := by
  obtain ⟨e, he⟩ : ∃ e : Sense, e.code = i / 3 % 2 := by
    rcases Nat.mod_two_eq_zero_or_one (i / 3) with h0 | h1
    · exact ⟨.upper, h0.symm⟩
    · exact ⟨.lower, h1.symm⟩
  refine ⟨i / 24, i / 6 % 4, e, i % 3 + 1, by omega, by omega, by omega, by omega, ?_⟩
  unfold thresholdIndex
  omega

/-- Whether the parameter of an index of a channel is out of its range (R98). -/
def ChannelParams.badAt (p : ChannelParams) : Nat → Prop
  | 0 => 1000 < p.hysteresis
  | 1 => p.closeCount < 1 ∨ 16 < p.closeCount
  | 2 => 64 < p.minLength
  | _ => p.absentRun < 1 ∨ 255 < p.absentRun

theorem badLimit_iff (l : LimitsImage) (i : Nat) : badLimit l i ↔
    (∃ c q e n, c < 8 ∧ q < 4 ∧ 1 ≤ n ∧ n ≤ 3 ∧ i = thresholdIndex c q e n ∧ l.badAt c q e n)
    ∨ ∃ c k, c < 8 ∧ k < 4 ∧ i = 192 + c * 4 + k ∧ (l.paramsOf c).badAt k := by
  unfold badLimit
  refine or_congr ?_ Iff.rfl
  constructor
  · rintro ⟨c, q, e, n, t, hc, hq, hn, hn3, hi, ht, hbad⟩
    refine ⟨c, q, e, n, hc, hq, hn, hn3, ?_, t, ht, ?_⟩
    · cases e <;> exact hi
    · cases e <;> exact hbad
  · rintro ⟨c, q, e, n, hc, hq, hn, hn3, hi, t, ht, hbad⟩
    refine ⟨c, q, e, n, t, hc, hq, hn, hn3, ?_, ht, ?_⟩
    · cases e <;> exact hi
    · cases e <;> exact hbad

/-- A parameter field is bad when the parameter is out of its range (R98, R100). -/
theorem badParameter_iff {v : List Int} {c k : Nat} (hc : c < 8) (hk : k < 4)
    (hv : 0 ≤ v.getD (192 + c * 4 + k) 0) : badParameter v (192 + c * 4 + k) = true ↔
      ((limitsOf v).paramsOf c).badAt k := by
  have hfield : (192 + c * 4 + k - 192) % 4 = k := by omega
  rw [limitsOf_paramsOf v hc]
  unfold badParameter paramsOf
  dsimp only
  rw [hfield]
  interval_cases k <;> simp [inRange, ChannelParams.badAt] at hv ⊢ <;> omega

/-- The fields the model finds bad in a LIMITS image are those that are bad (R100). -/
theorem badLimitField_iff {v : List Int} (hv : ∀ i, 192 ≤ i → i < 224 → 0 ≤ v.getD i 0) {i : Nat} (hi : i < 224) :
    badLimitField v i = true ↔ badLimit (limitsOf v) i := by
  rw [badLimit_iff]
  unfold badLimitField
  by_cases h : i < 192
  · rw [if_pos h]
    constructor
    · intro hbad
      obtain ⟨c, q, e, n, hc, hq, hn, hn3, rfl⟩ := exists_thresholdIndex h
      exact .inl ⟨c, q, e, n, hc, hq, hn, hn3, rfl, (badThreshold_iff_badAt v e hc hq hn hn3).mp hbad⟩
    · rintro (⟨c, q, e, n, hc, hq, hn, hn3, rfl, hbad⟩ | ⟨c, k, hc, hk, rfl, -⟩)
      · exact (badThreshold_iff_badAt v e hc hq hn hn3).mpr hbad
      · omega
  · rw [if_neg h]
    constructor
    · intro hbad
      obtain ⟨c, k, hc, hk, rfl⟩ : ∃ c k, c < 8 ∧ k < 4 ∧ i = 192 + c * 4 + k :=
        ⟨(i - 192) / 4, (i - 192) % 4, by omega, by omega, by omega⟩
      exact .inr ⟨c, k, hc, hk, rfl, (badParameter_iff hc hk (hv _ (by omega) hi)).mp hbad⟩
    · rintro (⟨c, q, e, n, hc, hq, hn, hn3, rfl, -⟩ | ⟨c, k, hc, hk, rfl, hbad⟩)
      · exact absurd (thresholdIndex_lt e hc hq hn hn3) h
      · exact (badParameter_iff hc hk (hv _ (by omega) hi)).mpr hbad

theorem lt_of_badLimit {l : LimitsImage} {i : Nat} (h : badLimit l i) : i < 224 := by
  obtain ⟨c, q, e, n, hc, hq, hn, hn3, rfl, -⟩ | ⟨c, k, hc, hk, rfl, -⟩ := (badLimit_iff l i).mp h
  · exact (thresholdIndex_lt e hc hq hn hn3).trans (by omega)
  · omega

/-! ## The checks of a commit (R179) -/

/-- A commit of an image of the right length, by the section's byte. -/
theorem execCommitSettings_of_length {s : State} {p : Port} {tag : Word16} {n : Byte} {image : List Byte}
    {c : Section} {rest : List Request} (hd : s.canDispatch p ⟨4, tag, n :: image⟩ rest) (hn : n.toNat = c.code)
    (hlen : image.length = imageLength c) :
    exec (.commitSettings p) s = .next (s.commitSection p ⟨4, tag, n :: image⟩ c) := by
  have hfront : s.frontRequest p 4 = some ⟨4, tag, n :: image⟩ := by
    rw [State.frontRequest_of_canDispatch hd]
    rfl
  have hbody : (n :: image).length = 1 + imageLength c := by simp [hlen, Nat.add_comm]
  change execCommitSettings p s = _
  unfold execCommitSettings
  rw [hfront]
  simp only [Request.field_first, hn, sectionOf_code]
  rw [if_neg (by simp), if_pos hbody]

/-- The checks of a commit that find nothing wrong before the image itself (R179). -/
theorem State.commitRefusal_eq (s : State) (p : Port) (c : Section) (v : List Int) : s.commitRefusal p c v =
    if ¬ (s.access p).commit.get c = true then some (.notPermitted, [])
    else if ¬ (s.ports.get p).reservation = some ⟨c, s.store.generations.get c⟩ then some (.lostReservation, [])
    else if ¬ ((c = .sampling ∨ c = .odometry) → s.run.state = .idle) then some (.runActive, [])
    else if ¬ ((c = .calibration → s.store.stagedCal = false) ∧ (c = .limits → s.store.stagedLim = false))
      then some (.applyPending, [])
    else match firstBadField c v with
      | some index => some (.invalidField, [natField 2 index])
      | none =>
        if c = .access ∧ (holdsAccess (accessOf v) .p0 || holdsAccess (accessOf v) .p1
          || holdsAccess (accessOf v) .p2) = false then some (.accessLockout, []) else none := by
  unfold State.commitRefusal
  refine if_congr (by simp) rfl (if_congr Iff.rfl rfl (if_congr ?_ rfl (if_congr ?_ rfl rfl)))
  · simp [State.runActive]
  · rw [Store.staged_eq]
    cases c <;> simp

/-- Settles O49: the lengths and the section first, then the checks of R179 in their order, and the fields that
are bad by their sections. -/
theorem commitRefusals : Obligations.CommitRefusals := by
  unfold Obligations.CommitRefusals
  intro s p tag body rest r hd refused
  have hfront : s.frontRequest p 4 = some r := by
    rw [State.frontRequest_of_canDispatch hd]
    rfl
  have hexec : exec (.commitSettings p) s = execCommitSettings p s := rfl
  refine ⟨?empty, ?body⟩
  case empty =>
    rintro rfl
    refine hexec.trans ?_
    unfold execCommitSettings
    rw [hfront]
    exact congrArg Host.Outcome.next (State.refuse_of_front hd.2.2 _)
  case body =>
    rintro n image rfl
    refine ⟨?section_, ?length⟩
    case section_ =>
      intro hn
      refine hexec.trans ?_
      unfold execCommitSettings
      rw [hfront]
      simp only [r, Request.field_first, sectionOf_eq_none hn]
      rw [if_neg (by simp)]
      exact congrArg Host.Outcome.next (State.refuseField_of_front hd.2.2 _)
    case length =>
      intro c hn v permitted held free unstaged
      refine ⟨?bad, ?good⟩
      case bad =>
        intro hlen
        refine hexec.trans ?_
        unfold execCommitSettings
        rw [hfront]
        simp only [r, Request.field_first, hn, sectionOf_code]
        rw [if_neg (by simp), if_neg (by simp only [List.length_cons]; omega)]
        exact congrArg Host.Outcome.next (State.refuse_of_front hd.2.2 _)
      case good =>
        intro hlen
        have hrefused {why : Completion} {fs : List Field} (h : s.commitRefusal p c v = some (why, fs)) :
            refused why fs := by
          refine (execCommitSettings_of_length hd hn hlen).trans (congrArg Host.Outcome.next ?_)
          unfold State.commitSection
          simp only [List.drop_one, List.tail_cons, v] at h ⊢
          rw [h]
          exact State.answer_of_front hd.2.2 _ _
        have hchecks := s.commitRefusal_eq p c v
        have hvlen : v.length = (sectionLayout c).length := decodeSlots_length _ _
        refine ⟨?permission, ?reservation, ?run, ?staged, ?field, ?lockout, ?fields, ?limits⟩
        case permission =>
          intro h1
          exact hrefused (hchecks.trans (if_pos h1))
        case reservation =>
          intro h1 h2
          refine hrefused (hchecks.trans ?_)
          rw [if_neg (not_not.mpr h1), if_pos h2]
        case run =>
          intro h1 h2 h3
          refine hrefused (hchecks.trans ?_)
          rw [if_neg (not_not.mpr h1), if_neg (not_not.mpr h2), if_pos h3]
        case staged =>
          intro h1 h2 h3 h4
          refine hrefused (hchecks.trans ?_)
          rw [if_neg (not_not.mpr h1), if_neg (not_not.mpr h2), if_neg (not_not.mpr h3), if_pos h4]
        case field =>
          intro h1 h2 h3 h4 i hi
          refine hrefused (hchecks.trans ?_)
          rw [if_neg (not_not.mpr h1), if_neg (not_not.mpr h2), if_neg (not_not.mpr h3), if_neg (not_not.mpr h4), hi]
        case lockout =>
          intro h1 h2 h4 hc h5
          have h3 : free := by
            intro h
            subst hc
            simp at h
          have hgood : firstBadField c v = none := by
            subst hc
            rfl
          refine hrefused (hchecks.trans ?_)
          rw [if_neg (not_not.mpr h1), if_neg (not_not.mpr h2), if_neg (not_not.mpr h3), if_neg (not_not.mpr h4), hgood]
          exact if_pos ⟨hc, by simp [h5]⟩
        case fields => exact fun hc => ⟨firstBadField_eq_none_iff hc hvlen, firstBadField_eq_some_iff hc hvlen⟩
        case limits =>
          intro hc
          have hv : ∀ i, 192 ≤ i → i < 224 → 0 ≤ v.getD i 0 := by
            subst hc
            exact fun i => decodeSlots_limits_nonneg image
          have hfirst : firstBadField c v = firstBadLimit v 0 224 := hc ▸ rfl
          rw [hfirst]
          refine ⟨?_, fun k => ?_⟩
          · rw [firstBadLimit_eq_none_iff]
            constructor
            · intro h i hbad
              have hi := lt_of_badLimit hbad
              rw [← badLimitField_iff hv hi, h i (Nat.zero_le i) (by omega)] at hbad
              cases hbad
            · intro h j _ hj
              exact Bool.eq_false_iff.mpr fun hbad => h j ((badLimitField_iff hv (by omega)).mp hbad)
          · rw [firstBadLimit_eq_some_iff]
            constructor
            · rintro ⟨-, hk, hbad, hbefore⟩
              refine ⟨(badLimitField_iff hv (by omega)).mp hbad, fun i hi hbadi => ?_⟩
              have := (badLimitField_iff hv (by omega)).mpr hbadi
              rw [hbefore i (Nat.zero_le i) hi] at this
              cases this
            · rintro ⟨hbad, hbefore⟩
              have hk := lt_of_badLimit hbad
              refine ⟨Nat.zero_le k, by omega, (badLimitField_iff hv hk).mpr hbad, fun j _ hj => ?_⟩
              exact Bool.eq_false_iff.mpr fun h => hbefore j hj ((badLimitField_iff hv (by omega)).mp h)

end Sys2Proof.Machine
end

section
/-! PROOFS. The round trip of a valid section image (11.1, 13.6). -/

namespace Sys2Proof.Machine

/-! ## Fields spelled back (13) -/

theorem ofLe_lt (bs : List Byte) : ofLe bs < 256 ^ bs.length := by
  induction bs with
  | nil => decide
  | cons b bs ih =>
    rw [ofLe, List.length_cons, pow_succ]
    have := b.isLt
    omega

theorem leNat_ofLe (bs : List Byte) : leNat bs.length (ofLe bs) = bs := by
  induction bs with
  | nil => rfl
  | cons b bs ih =>
    have hb := b.isLt
    have hrest : (b.toNat + 256 * ofLe bs) / 256 = ofLe bs := by omega
    have hbyte : BitVec.ofNat 8 (b.toNat + 256 * ofLe bs) = b := by
      refine BitVec.eq_of_toNat_eq ?_
      rw [BitVec.toNat_ofNat]
      omega
    rw [List.length_cons, ofLe, leNat, hrest, hbyte, ih]

/-- A field whose value is that of bytes, up to the two's complement, is those bytes. -/
theorem leInt_of_mod {bs : List Byte} {v : Int} (hfits : fitsField bs.length v = true)
    (hmod : v % 256 ^ bs.length = ofLe bs) : leInt bs.length v = bs := by
  rw [leInt, if_pos hfits, hmod, Int.toNat_natCast, leNat_ofLe]

theorem leInt_ofLe (bs : List Byte) : leInt bs.length (ofLe bs) = bs := by
  have hlt : ((ofLe bs : Nat) : Int) < 256 ^ bs.length := by exact_mod_cast ofLe_lt bs
  refine leInt_of_mod ?_ (Int.emod_eq_of_lt (Int.natCast_nonneg _) hlt)
  simp only [fitsField, Bool.and_eq_true, decide_eq_true_eq]
  omega

theorem leInt_signedOf (bs : List Byte) : leInt bs.length (signedOf bs.length (ofLe bs)) = bs := by
  have hlt : ((ofLe bs : Nat) : Int) < 256 ^ bs.length := by exact_mod_cast ofLe_lt bs
  unfold signedOf
  split
  · exact leInt_ofLe bs
  · next h =>
    have hhalf : (256 : Int) ^ bs.length ≤ 2 * ofLe bs := by
      have : 256 ^ bs.length ≤ 2 * ofLe bs := by omega
      exact_mod_cast this
    refine leInt_of_mod ?_ ?_
    · simp only [fitsField, Bool.and_eq_true, decide_eq_true_eq]
      omega
    · rw [Int.sub_emod_right, Int.emod_eq_of_lt (Int.natCast_nonneg _) hlt]

/-- The bytes of the values that bytes spell are the bytes. -/
theorem fieldBytes_decodeSlots {ts : List Slot} {bytes : List Byte} (h : bytes.length = (ts.map Slot.size).sum) :
    fieldBytes (slotFields ts (decodeSlots ts bytes)) = bytes := by
  induction ts generalizing bytes with
  | nil =>
    obtain rfl : bytes = [] := List.eq_nil_of_length_eq_zero h
    rfl
  | cons t ts ih =>
    rw [List.map_cons, List.sum_cons] at h
    have hlen : (bytes.take t.size).length = t.size := by
      rw [List.length_take]
      omega
    have hfield : leInt t.size (if t.signed then signedOf t.size (ofLe (bytes.take t.size))
        else (ofLe (bytes.take t.size) : Int)) = bytes.take t.size := by
      have hs := leInt_signedOf (bytes.take t.size)
      have hu := leInt_ofLe (bytes.take t.size)
      rw [hlen] at hs hu
      split <;> assumption
    have hrest := ih (bytes := bytes.drop t.size) (by rw [List.length_drop]; omega)
    refine (congrArg₂ (· ++ ·) hfield hrest).trans (List.take_append_drop _ _)

/-! ## The values of an image that a commit installs (13.6) -/

/-- A list is what its positions hold. -/
theorem eq_map_getD {v : List Int} {n : Nat} (h : v.length = n) : v = (List.range n).map (fun k => v.getD k 0) := by
  refine List.ext_getElem (by simp [h]) fun i h1 h2 => ?_
  simp [List.getD, List.getElem?_eq_getElem h1]

theorem decodeSlots_access_values (bytes : List Byte) (n : Nat) :
    ∀ x ∈ decodeSlots (List.replicate n (.u 1)) bytes, 0 ≤ x ∧ x < 256 := by
  induction n generalizing bytes with
  | zero => intro x hx; cases hx
  | succ n ih =>
    intro x hx
    rw [List.replicate_succ, decodeSlots, List.mem_cons] at hx
    obtain rfl | hx := hx
    · have hlt := ofLe_lt (bytes.take 1)
      have hlen : (bytes.take 1).length ≤ 1 := List.length_take_le 1 bytes
      have hpow : 256 ^ (bytes.take 1).length ≤ 256 ^ 1 := Nat.pow_le_pow_right (by decide) hlen
      simp only [Slot.u, Bool.false_eq_true, if_false]
      omega
    · exact ih _ x hx

theorem accessOf_values {v : List Int} (hlen : v.length = 30) (hv : ∀ x ∈ v, 0 ≤ x ∧ x < 256) :
    ((accessOf v).p0 ++ (accessOf v).p1 ++ (accessOf v).p2).map (fun b => (b.toNat : Int)) = v := by
  unfold accessOf
  dsimp only
  have hall : (v.map (BitVec.ofInt 8)).take 10 ++ ((v.map (BitVec.ofInt 8)).drop 10).take 10
      ++ ((v.map (BitVec.ofInt 8)).drop 20).take 10 = v.map (BitVec.ofInt 8) := by
    have hlast : ((v.map (BitVec.ofInt 8)).drop 20).take 10 = ((v.map (BitVec.ofInt 8)).drop 10).drop 10 := by
      rw [List.drop_drop]
      exact List.take_of_length_le (by simp [hlen])
    rw [hlast, List.append_assoc, List.take_append_drop, List.take_append_drop]
  rw [hall, List.map_map]
  refine (List.map_congr_left fun x hx => ?_).trans (List.map_id v)
  obtain ⟨h0, h1⟩ := hv x hx
  simp only [Function.comp, id, BitVec.toNat_ofInt]
  omega

theorem boolInt_beq_one {x : Int} (h : x = 0 ∨ x = 1) : boolInt (x.toNat == 1) = x := by
  obtain rfl | rfl := h <;> rfl

theorem laneModeOf_code {x : Int} (h : x = 0 ∨ x = 1) : (laneModeOf x).code = x := by
  obtain rfl | rfl := h <;> rfl

theorem calibrationOf_values {v : List Int} (hlen : v.length = 21)
    (hmodes : ∀ k < 4, v.getD k 0 = 0 ∨ v.getD k 0 = 1) (hwindow : 0 ≤ v.getD 20 0) :
    (calibrationOf v).values = v := by
  have hdrop (m k : Nat) : (v.drop m).getD k 0 = v.getD (m + k) 0 := by simp [List.getD]
  refine Eq.trans ?_ (eq_map_getD hlen).symm
  simp only [CalibrationImage.values, HeadCalibration.values, calibrationOf, headOf, hdrop, Int.toNat_of_nonneg hwindow,
    laneModeOf_code (hmodes 0 (by omega)), laneModeOf_code (hmodes 1 (by omega)),
    laneModeOf_code (hmodes 2 (by omega)), laneModeOf_code (hmodes 3 (by omega))]
  rfl

theorem samplingOf_values {v : List Int} (hlen : v.length = 9) (hv : ∀ k < 9, 0 ≤ v.getD k 0) :
    (samplingOf v).values = v := by
  refine Eq.trans ?_ (eq_map_getD hlen).symm
  have hnat (k : Nat) (hk : k < 9) : ((v.getD k 0).toNat : Int) = v.getD k 0 := Int.toNat_of_nonneg (hv k hk)
  simp only [SamplingImage.values, samplingOf, hnat _ (show 0 < 9 by omega), hnat _ (show 1 < 9 by omega),
    hnat _ (show 2 < 9 by omega), hnat _ (show 3 < 9 by omega), hnat _ (show 4 < 9 by omega),
    hnat _ (show 5 < 9 by omega), hnat _ (show 6 < 9 by omega), hnat _ (show 7 < 9 by omega),
    hnat _ (show 8 < 9 by omega)]
  rfl

theorem odometryOf_values {v : List Int} (hlen : v.length = 11) (hv : ∀ k < 11, 0 ≤ v.getD k 0)
    (hflags : ∀ k ∈ [6, 7, 9], v.getD k 0 = 0 ∨ v.getD k 0 = 1) : (odometryOf v).values = v := by
  refine Eq.trans ?_ (eq_map_getD hlen).symm
  have hnat (k : Nat) (hk : k < 11) : ((v.getD k 0).toNat : Int) = v.getD k 0 := Int.toNat_of_nonneg (hv k hk)
  have hmode : (match (if (v.getD 9 0).toNat = 1 then FixMode.blend else .step) with
      | .step => 0 | .blend => (1 : Int)) = v.getD 9 0 := by
    obtain h | h := hflags 9 (by simp) <;> rw [h] <;> rfl
  simp only [OdometryImage.values, odometryOf, boolInt_beq_one (hflags 6 (by simp)), boolInt_beq_one (hflags 7 (by simp)),
    hnat _ (show 0 < 11 by omega), hnat _ (show 1 < 11 by omega),
    hnat _ (show 2 < 11 by omega), hnat _ (show 3 < 11 by omega), hnat _ (show 4 < 11 by omega),
    hnat _ (show 5 < 11 by omega), hnat _ (show 8 < 11 by omega), hnat _ (show 10 < 11 by omega)]
  simp only [List.range, List.range.loop, List.map_cons, List.map_nil]
  exact congrArg (fun x => [_, _, _, _, _, _, _, _, _, x, _]) hmode

theorem markingOf_values {v : List Int} (hlen : v.length = 5) (hv : ∀ k < 5, 0 ≤ v.getD k 0)
    (hflag : v.getD 0 0 = 0 ∨ v.getD 0 0 = 1) : (markingOf v).values = v := by
  refine Eq.trans ?_ (eq_map_getD hlen).symm
  have hnat (k : Nat) (hk : k < 5) : ((v.getD k 0).toNat : Int) = v.getD k 0 := Int.toNat_of_nonneg (hv k hk)
  simp only [MarkingImage.values, markingOf, boolInt_beq_one hflag, hnat _ (show 1 < 5 by omega),
    hnat _ (show 2 < 5 by omega), hnat _ (show 3 < 5 by omega), hnat _ (show 4 < 5 by omega)]
  rfl

theorem thresholdOf_getD (x : Int) : (thresholdOf x).getD (-32768) = x := by
  unfold thresholdOf
  split
  · next h => exact h.symm
  · rfl

theorem limitsOf_values {v : List Int} (hlen : v.length = 224) (hv : ∀ k, 192 ≤ k → k < 224 → 0 ≤ v.getD k 0) :
    (limitsOf v).values = v := by
  have hthresholds : (limitsOf v).thresholds.map (fun t => t.getD (-32768)) = v.take 192 := by
    unfold limitsOf
    rw [List.map_map]
    exact (List.map_congr_left fun x _ => thresholdOf_getD x).trans (List.map_id _)
  have hparams : ((limitsOf v).params.map (fun p => ([(p.hysteresis : Int), (p.closeCount : Int), (p.minLength : Int),
      (p.absentRun : Int)] : List Int))).flatten = v.drop 192 := by
    have hdrop : (v.drop 192).length = 32 := by simp [hlen]
    have hnat (k : Nat) (hk : k < 32) : ((v.getD (192 + k) 0).toNat : Int) = (v.drop 192).getD k 0 := by
      rw [Int.toNat_of_nonneg (hv _ (by omega) (by omega))]
      simp [List.getD]
    have hchannel (c : Nat) (hc : c < 8) : ([((paramsOf v c).hysteresis : Int), ((paramsOf v c).closeCount : Int),
        ((paramsOf v c).minLength : Int), ((paramsOf v c).absentRun : Int)] : List Int)
        = (List.range 4).map (fun k => (v.drop 192).getD (c * 4 + k) 0) := by
      simp only [paramsOf, Nat.add_assoc, hnat (c * 4 + 0) (by omega), hnat (c * 4 + 1) (by omega),
        hnat (c * 4 + 2) (by omega), hnat (c * 4 + 3) (by omega)]
      rfl
    rw [eq_map_getD hdrop]
    simp only [limitsOf, List.map_cons, List.map_nil, hchannel 0 (by omega), hchannel 1 (by omega),
      hchannel 2 (by omega), hchannel 3 (by omega), hchannel 4 (by omega), hchannel 5 (by omega),
      hchannel 6 (by omega), hchannel 7 (by omega)]
    rfl
  rw [LimitsImage.values, hthresholds, hparams, List.take_append_drop]

/-- Settles O52: each field reads back as it was decoded, as its test holds. -/
theorem committedImageReadsBack : Obligations.CommittedImageReadsBack := by
  unfold Obligations.CommittedImageReadsBack
  intro i c bytes hbytes v hgood
  suffices hvalues : (i.replace c v).values c = v by
    rw [Images.fields, hvalues]
    exact fieldBytes_decodeSlots hbytes
  have hlen : v.length = (sectionLayout c).length := decodeSlots_length _ _
  have hok (hc : c ≠ .limits) (k : Nat) (hk : k < v.length) : fieldOk c k (v.getD k 0) := by
    refine (firstBadField_eq_none_iff hc hlen).mp hgood k _ ?_
    rw [List.getD_eq_getElem _ _ hk, List.getElem?_eq_getElem hk]
  cases c with
  | access => exact accessOf_values hlen (decodeSlots_access_values bytes 30)
  | calibration =>
    replace hlen : v.length = 21 := hlen
    refine calibrationOf_values hlen (fun k hk => ?_) (decodeSlots_nonneg (n := 1) rfl bytes)
    have h := hok nofun k (by omega)
    rwa [fieldOk, if_pos hk] at h
  | sampling =>
    refine samplingOf_values hlen fun k hk => ?_
    have hslot : ∀ k < 9, ∃ n ∈ [1, 2], (sectionLayout .sampling)[k]? = some (.u n) := by decide
    obtain ⟨n, -, hn⟩ := hslot k hk
    exact decodeSlots_nonneg hn bytes
  | odometry =>
    refine odometryOf_values hlen (fun k hk => ?_) fun k hk => ?_
    · have hslot : ∀ k < 11, ∃ n ∈ [1, 2, 4], (sectionLayout .odometry)[k]? = some (.u n) := by decide
      obtain ⟨n, -, hn⟩ := hslot k hk
      exact decodeSlots_nonneg hn bytes
    · replace hlen : v.length = 11 := hlen
      simp only [List.mem_cons, List.not_mem_nil, or_false] at hk
      obtain rfl | rfl | rfl := hk
      · exact hok nofun 6 (by omega)
      · exact hok nofun 7 (by omega)
      · exact hok nofun 9 (by omega)
  | limits => exact limitsOf_values hlen fun k => decodeSlots_limits_nonneg bytes
  | marking =>
    refine markingOf_values hlen (fun k hk => ?_) (hok nofun 0 (by rw [hlen]; decide))
    have hslot : ∀ k < 5, ∃ n ∈ [1, 2], (sectionLayout .marking)[k]? = some (.u n) := by decide
    obtain ⟨n, -, hn⟩ := hslot k hk
    exact decodeSlots_nonneg hn bytes

end Sys2Proof.Machine
end

section
/-! PROOFS. The requests of a port itself (12.6, 13.7): Identify, Read Status and Set Port Options. -/

namespace Sys2Proof.Machine

/-! ## Read Status (R197) -/

theorem bitsNat_one (a b : Bool) : bitsNat [a, b] = (if a then 2 ^ 0 else 0) + (if b then 2 ^ 1 else 0) := by
  cases a <;> cases b <;> rfl

theorem bitsNat_three (a b c : Bool) :
    bitsNat [a, b, c] = (if a then 2 ^ 0 else 0) + (if b then 2 ^ 1 else 0) + (if c then 2 ^ 2 else 0) := by
  cases a <;> cases b <;> cases c <;> rfl

theorem bitsNat_four (a b c d : Bool) : bitsNat [a, b, c, d]
    = (if a then 2 ^ 0 else 0) + (if b then 2 ^ 1 else 0) + (if c then 2 ^ 2 else 0) + (if d then 2 ^ 3 else 0) := by
  cases a <;> cases b <;> cases c <;> cases d <;> rfl

/-- The size of the trackers' values: 12 bytes for each OPEN one (R135). -/
theorem trackersStatus_size (ts : List Tracker) (i : Nat) :
    fieldSize (trackersStatus i ts) = 12 * (ts.filter Option.isSome).length := by
  induction ts generalizing i with
  | nil => rfl
  | cons t ts ih =>
    rw [trackersStatus, fieldSize_append, ih]
    cases t with
    | none => simp [trackerStatus, fieldSize]
    | some g =>
      simp [trackerStatus, fieldSize, natField, flagField]
      omega

theorem State.statusFields_size (s : State) (p : Port) :
    1 + fieldSize (s.statusFields p) = 277 + 12 * (s.exc.trackers.filter Option.isSome).length := by
  simp only [State.statusFields, fieldSize_append, ExceedanceUnit.statusFields, trackersStatus_size]
  generalize 12 * (s.exc.trackers.filter Option.isSome).length = n
  simp [TachUnit.statusFields, Tach.statusFields, DistanceBase.statusFields, State.laneStatus,
    LaneReceiver.statusFields, State.setStatus, State.geometryStatus, State.classStatus, State.markingStatus,
    RunControl.statusFields, ringStatus, storeStatus, linkStatus, PortAccess.values, PerSection.list, fieldSize,
    natField, flagField, noneField]
  omega

/-- The exceedance unit's values, each OPEN tracker's by its number (R135). -/
theorem ExceedanceUnit.statusFields_eq (u : ExceedanceUnit) : u.statusFields =
    [natField 4 u.number, natField 2 u.counts.level1, natField 2 u.counts.level2, natField 2 u.counts.level3,
      natField 2 u.counts.suppressed, natField 2 u.counts.urgent, natField 2 u.evalList.length,
      natField 1 (u.trackers.filter Option.isSome).length]
    ++ (List.range u.trackers.length).flatMap (fun i => match u.trackers[i]? with
      | some (some g) => [natField 1 (i / 2), natField 1 (i % 2), natField 1 g.level,
          natField 4 g.startPoint, natField 4 g.endPoint, flagField g.urgent]
      | _ => []) := by
  rw [ExceedanceUnit.statusFields, trackersStatus_eq]
  simp only [Nat.zero_add] <;> rfl

theorem RunControl.statusFields_eq (c : RunControl) : c.statusFields =
    [natField 1 c.state.code, natField 2 c.number,
      natField 1 (match c.op with
        | none => 0
        | some o => match o.what with
          | .start _ _ _ => 1 | .pause _ => 2 | .resume => 3 | .finish => 4),
      natField 1 (match c.op with | none => 0 | some o => portCode o.port),
      flagField c.closing] := by
  unfold RunControl.statusFields
  cases c.op with
  | none => rfl
  | some o => cases o with | mk port tag what => cases what <;> rfl

/-- Settles O59: the bodies of Identify and Read Status, and the options of a port. -/
theorem portRequests : Obligations.PortRequests := by
  unfold Obligations.PortRequests
  intro s p tag rest
  refine ⟨?identify, ?status, ?options⟩
  case identify =>
    intro hd
    refine ⟨identifyFields, ?_, rfl, ?_⟩
    · change execIdentify p s = _
      unfold execIdentify
      rw [State.serve_of_length (code := 1) (n := 0) hd rfl rfl]
      exact congrArg Host.Outcome.next (State.answerOk_of_front hd.2.2 _)
    · simp only [identifyFields, bitsNat_one]
      rfl
  case status =>
    intro hd q bit tach lane sticky ls sam e m lim st own
    refine ⟨s.statusFields p, ?_, ?_, s.statusFields_size p⟩
    · change execReadStatus p s = _
      unfold execReadStatus
      rw [State.serve_of_length (code := 2) (n := 0) hd rfl rfl]
      exact congrArg Host.Outcome.next (State.answerOk_of_front hd.2.2 _)
    · have hports : linkStatus s.ports q = [natField 1 s.ports.p0.link.code, natField 1 s.ports.p1.link.code,
          natField 1 s.ports.p2.link.code, natField 2 q.framing, natField 2 q.crc, natField 2 q.discarded,
          natField 1 q.requests.length, natField 1 q.stream.code, flagField q.pendingPause.isSome,
          natField 1 (bit 0 q.mask.runState + bit 1 q.mask.laneState + bit 2 q.mask.tachState)] := by
        rw [linkStatus, NoticeMask.byte, bitsNat_three]
      have hlanes : s.laneStatus p = [natField 4 s.strobe.number.toNat, natField 2 sam.rate]
          ++ lane ls.sl0 ++ lane ls.sl1 ++ lane ls.sl2 ++ lane ls.sl3
          ++ [natField 1 (sticky 0 ls.sl0 + sticky 1 ls.sl1 + sticky 2 ls.sl2 + sticky 3 ls.sl3)] := by
        rw [State.laneStatus]
        refine congrArg (fun n => _ ++ [natField 1 n]) ?_
        exact bitsNat_four _ _ _ _
      have hstore : storeStatus st q own = [natField 4 st.generations.access.toNat,
          natField 4 st.generations.calibration.toNat,
          natField 4 st.generations.sampling.toNat, natField 4 st.generations.odometry.toNat,
          natField 4 st.generations.limits.toNat, natField 4 st.generations.marking.toNat,
          natField 1 (bit 0 st.stagedCal + bit 1 st.stagedLim),
          natField 1 (match q.reservation with | none => 0 | some x => x.sec.code),
          natField 4 (match q.reservation with | none => 0 | some x => x.generation.toNat),
          natField 1 (match q.await with | none => 0 | some x => x.sec.code),
          natField 4 (match q.await with | none => 0 | some x => x.generation.toNat)]
          ++ [flagField own.commit.access, flagField own.commit.calibration, flagField own.commit.sampling,
          flagField own.commit.odometry, flagField own.commit.limits, flagField own.commit.marking,
          flagField own.rawRead, flagField own.reset, flagField own.runControl, flagField own.position] := by
        rw [storeStatus, bitsNat_one]
        cases q.reservation <;> cases q.await <;> rfl
      rw [State.statusFields, bitsNat_three, hlanes, hports, hstore, ExceedanceUnit.statusFields_eq,
        RunControl.statusFields_eq]
      rfl
  case options =>
    intro mode mask hd
    set r : Request := ⟨6, tag, [mode, mask]⟩ with hr
    have hmode : r.field 0 1 = mode.toNat := Request.field_first 6 tag mode [mask]
    have hmask : r.field 1 1 = mask.toNat := Request.field_byte_at 6 tag [mode] [] mask rfl
    have hexec : exec (.setPortOptions p) s = .next (match overrunOf mode.toNat with
        | none => s.replied p r rest .invalidField [natField 2 0]
        | some o => State.replied (s.modPort p (fun q => { q with overrun := o, mask := maskOf mask.toNat }))
            p r rest .ok []) := by
      change execSetPortOptions p s = _
      unfold execSetPortOptions
      rw [State.serve_of_length (code := 6) (n := 2) hd rfl rfl, hmode, hmask]
      cases overrunOf mode.toNat with
      | none => exact congrArg Host.Outcome.next (State.refuseField_of_front hd.2.2 _)
      | some o =>
        exact congrArg Host.Outcome.next (State.answerOk_of_front (s := s.modPort p _) (by simpa using hd.2.2) _)
    rw [hexec]
    refine ⟨fun h => ?_, fun h => ?_⟩
    · obtain ⟨n, hn⟩ := Nat.exists_eq_add_of_le' h
      rw [hn]
      rfl
    · have hmaskOf : maskOf mask.toNat = ⟨mask.getLsbD 0, mask.getLsbD 1, mask.getLsbD 2⟩ := rfl
      have hcases : mode = 0 ∨ mode = 1 := by
        simp only [← BitVec.toNat_inj]
        change mode.toNat = 0 ∨ mode.toNat = 1
        omega
      obtain h0 | h1 := hcases
      · rw [h0, hmaskOf]
        rfl
      · rw [h1, hmaskOf]
        rfl

end Sys2Proof.Machine
end

section
/-! PROOFS. Runs (09): the run requests, what the blocks take of a Run Start and a Run Resume, the end of a
flush and of a truncation, and the completion of an operation; and Position Fix (2.5). -/

namespace Sys2Proof.Machine

/-! ## The run requests (R148, R149) -/

theorem State.finishRequest_of_front {s : State} {p : Port} {r : Request} {rest : List Request}
    (h : (s.ports.get p).requests = r :: rest) : s.finishRequest p = s.parked p rest := by
  unfold State.finishRequest State.parked State.modPort
  dsimp only
  rw [h]
  rfl

/-- The refusal of a run request, by whether its run states hold (R148). -/
theorem State.runRefusal_eq (s : State) (p : Port) (admitted : List RunState) : s.runRefusal p admitted =
    if (s.access p).runControl = false then some .notPermitted
    else if s.run.op ≠ none ∨ admitted.contains s.run.state = false then some .wrongState
    else none := by
  unfold State.runRefusal
  refine if_congr (by simp) rfl ?_
  cases s.run.op with
  | some o => rfl
  | none => cases admitted.contains s.run.state <;> rfl

/-- Settles O36: the checks one after another, and the state that a Run Start begins. -/
theorem runStartOutcomes : Obligations.RunStartOutcomes := by
  unfold Obligations.RunStartOutcomes
  intro s p tag position orientation cls rest hpos r hd refused sam o
  have hfront := hd.2.2
  have hp : r.field 0 4 = position := Request.field_at 7 tag [] [orientation, cls] rfl hpos
  have ho : r.field 4 1 = orientation.toNat :=
    Request.field_byte_at 7 tag (leNat 4 position) [cls] orientation (leNat_length 4 position)
  have hc : r.field 5 1 = cls.toNat := by
    have := Request.field_byte_at 7 tag (leNat 4 position ++ [orientation]) [] cls (off := 5) (by simp)
    simpa [r] using this
  change execRunStart p s = _
  unfold execRunStart
  rw [State.serve_of_length (code := 7) hd rfl (by simp [r]), hp, ho, hc, State.runRefusal_eq]
  refine congrArg Host.Outcome.next ?_
  by_cases hperm : (s.access p).runControl = false
  · rw [if_pos hperm, if_pos hperm]
    exact State.refuse_of_front hfront _
  rw [if_neg hperm, if_neg hperm]
  by_cases hop : s.run.op ≠ none
  · rw [if_pos (.inl hop), if_pos hop]
    exact State.refuse_of_front hfront _
  rw [if_neg hop]
  by_cases hidle : s.run.state ≠ .idle
  · rw [if_pos (.inr (by cases hs : s.run.state with | idle => exact absurd hs hidle | running | paused => rfl)), if_pos hidle]
    exact State.refuse_of_front hfront _
  rw [if_neg hidle, if_neg (by rw [not_or]; exact ⟨hop, by simp [not_not.mp hidle]⟩)]
  by_cases h0 : 999999999 < position
  · simp only [badStartField, if_pos h0]
    exact State.refuseField_of_front hfront 0
  by_cases h1 : 1 < orientation.toNat
  · simp only [badStartField, if_neg h0, if_pos h1]
    exact State.refuseField_of_front hfront 1
  by_cases h2 : 3 < cls.toNat
  · simp only [badStartField, if_neg h0, if_neg h1, if_pos h2]
    exact State.refuseField_of_front hfront 2
  simp only [badStartField, if_neg h0, if_neg h1, if_neg h2]
  have horient : (orientationOf orientation.toNat).getD .up = o := by
    have hcases : orientation = 0 ∨ orientation = 1 := by
      simp only [← BitVec.toNat_inj]
      change orientation.toNat = 0 ∨ orientation.toNat = 1
      omega
    obtain h | h := hcases <;> simp only [o, h] <;> rfl
  rw [horient, State.finishRequest_of_front (by exact hfront)]
  have hstate : s.run.state = .idle := not_not.mp hidle
  simp only [RunControl.begin, hstate]
  rfl

/-- Settles O37: each request is refused as the permission, the operation in progress and the run state say, or
begins its operation. -/
theorem runPauseResumeEndOutcomes : Obligations.RunPauseResumeEndOutcomes := by
  unfold Obligations.RunPauseResumeEndOutcomes
  intro s p tag code rest r hd barred began
  have hfront := hd.2.2
  have hbarred {admitted : List RunState} {b : Bool} (h : admitted.contains s.run.state = b) :
      s.runRefusal p admitted = barred b := h ▸ s.runRefusal_eq p admitted
  refine ⟨?pause, ?resume, ?finish⟩
  case pause =>
    rintro rfl
    have hstates : [RunState.running].contains s.run.state = (s.run.state == .running) := by
      cases s.run.state <;> rfl
    have hexec : exec (.runPause p) s = execRunPause p s := rfl
    unfold execRunPause at hexec
    rw [State.serve_of_length (code := 8) (n := 0) hd rfl rfl, hbarred hstates] at hexec
    refine ⟨fun c hc => ?_, fun hn => ?_⟩
    · rw [hexec, hc]
      exact congrArg Host.Outcome.next (State.refuse_of_front hfront _)
    · rw [hexec, hn]
      exact congrArg Host.Outcome.next (State.finishRequest_of_front (by exact hfront))
  case resume =>
    rintro rfl
    have hstates : [RunState.paused].contains s.run.state = (s.run.state == .paused) := by
      cases s.run.state <;> rfl
    have hexec : exec (.runResume p) s = execRunResume p s := rfl
    unfold execRunResume at hexec
    rw [State.serve_of_length (code := 9) (n := 0) hd rfl rfl, hbarred hstates] at hexec
    refine ⟨fun c hc => ?_, fun hn => ?_⟩
    · rw [hexec, hc]
      exact congrArg Host.Outcome.next (State.refuse_of_front hfront _)
    · rw [hexec, hn]
      exact congrArg Host.Outcome.next (State.finishRequest_of_front (by exact hfront))
  case finish =>
    rintro rfl
    have hstates : [RunState.running, .paused].contains s.run.state = (s.run.state != .idle) := by
      cases s.run.state <;> rfl
    have hexec : exec (.runEnd p) s = execRunEnd p s := rfl
    unfold execRunEnd at hexec
    rw [State.serve_of_length (code := 10) (n := 0) hd rfl rfl, hbarred hstates] at hexec
    refine ⟨fun c hc => ?_, fun hn => ?_⟩
    · rw [hexec, hc]
      exact congrArg Host.Outcome.next (State.refuse_of_front hfront _)
    · rw [hexec, hn]
      exact congrArg Host.Outcome.next (State.finishRequest_of_front (by exact hfront))

/-! ## What the blocks take (R150, R154) -/

theorem RunControl.stage?_of_op {c : RunControl} {o : Operation} (h : c.op = some o) : c.stage? = some o.stage := by
  rw [RunControl.stage?, h]
  rfl

theorem RunControl.atStage_of_op {c : RunControl} {o : Operation} (h : c.op = some o) (stage : Stage) :
    c.atStage stage = { c with op := some { o with stage := stage } } := by
  rw [RunControl.atStage, h]
  rfl

theorem startingStage_eq (g e m : Bool) : startingStage g e m =
    if g = true ∧ e = true ∧ m = true then .baseStarting else .starting g e m := by
  cases g <;> cases e <;> cases m <;> rfl

/-- Settles O19: each block's taking is the one its stage allows. -/
theorem runStartAndResumeTakenByBlocks : Obligations.RunStartAndResumeTakenByBlocks := by
  unfold Obligations.RunStartAndResumeTakenByBlocks
  intro s o ho at_
  have hat (g e m : Bool) : s.run.atStage (startingStage g e m) = at_ g e m := by
    rw [RunControl.atStage_of_op ho, startingStage_eq]
  have hstage := RunControl.stage?_of_op ho
  refine ⟨?geometry, ?exceedance, ?marking, ?base, ?resume⟩
  case geometry =>
    intro e m h
    rw [h] at hstage
    change execGeometryRunStart s = _
    unfold execGeometryRunStart
    rw [hstage]
    simp only [hat]
    rfl
  case exceedance =>
    intro g m position orientation cls h hwhat
    change execExceedanceRunStart s = _
    unfold execExceedanceRunStart
    rw [ho]
    simp only [h, hat, Operation.startClass, hwhat]
    rfl
  case marking =>
    intro g e h
    rw [h] at hstage
    change execMarkingRunStart s = _
    unfold execMarkingRunStart
    rw [hstage]
    simp only [hat]
    rfl
  case base =>
    intro position orientation cls h hwhat
    change execDistanceBaseRunStart s = _
    unfold execDistanceBaseRunStart
    rw [ho]
    simp only [h, hwhat, RunControl.atStage_of_op ho]
    rfl
  case resume =>
    intro h
    rw [h] at hstage
    change execGeometryRunResume s = _
    unfold execGeometryRunResume
    rw [hstage]
    simp only [RunControl.atStage_of_op ho]
    rfl

/-! ## The ends of a flush and of a truncation (R130, R131, R152, R155) -/

theorem State.requestDue_iff (s : State) (what : RunOperation) :
    s.requestDue what = true ↔ (what = .finish → s.geo.out = []) := by
  cases what <;> simp [State.requestDue]

theorem RunOperation.cause_eq (what : RunOperation) :
    what.cause = if what = .finish then .runEnd else .pause := by
  cases what <;> rfl

theorem State.runRecorded_iff (s : State) : s.runRecorded = true ↔
    s.geo.out = [] ∧ s.exc.evalList = [] ∧ s.exc.out = [] ∧ s.marking.out = [] ∧ s.base.out = [] := by
  simp [State.runRecorded, and_assoc]

/-- Settles O38: the two steps that are due, and those that are not. -/
theorem flushAndTruncationFinished : Obligations.FlushAndTruncationFinished := by
  unfold Obligations.FlushAndTruncationFinished
  refine ⟨?flush, ?truncation⟩
  case flush =>
    intro s o ho hstage
    have hexec : exec .flushFinished s = execFlushFinished s := rfl
    unfold execFlushFinished at hexec
    simp only [ho, hstage] at hexec
    refine ⟨fun hleft hout => ?_, ?_⟩
    · rw [hexec, hleft]
      refine (if_pos ((s.requestDue_iff o.what).mpr hout)).trans ?_
      rw [RunOperation.cause_eq, RunControl.atStage_of_op ho]
    · rintro (hleft | ⟨hwhat, hout⟩)
      · rw [hexec]
        split
        · next h => exact absurd h hleft
        · rfl
      · rw [hexec]
        split
        · rw [if_neg fun h => hout ((s.requestDue_iff o.what).mp h hwhat)]
        · rfl
  case truncation =>
    intro s o report ho hstage ht waiting marks lim base recorded
    have hexec : exec .truncationFinished s = execTruncationFinished s := rfl
    unfold execTruncationFinished at hexec
    simp only [ho, ht, hstage] at hexec
    have hwaiting : s.run.atStage .recordWaiting = waiting := RunControl.atStage_of_op ho _
    refine ⟨fun hleft => ?_, fun hleft j hwhat => ?_, fun hleft hwhat hnot => ?_, fun hleft hwhat hrec => ?_⟩
    · rw [hexec]
      split
      · next h => exact absurd h hleft
      · rfl
    · rw [hexec, hleft, hwhat]
      simp only [State.pauseReported, hwaiting]
      rfl
    · rw [hexec, hleft, hwhat]
      exact if_neg fun h => hnot (s.runRecorded_iff.mp h)
    · rw [hexec, hleft, hwhat]
      refine (if_pos (s.runRecorded_iff.mpr hrec)).trans ?_
      simp only [State.endReported, hwaiting]
      rfl

/-! ## Completion (R148, R158) -/

/-- Settles O40: the response, the notice, and what an End settles. -/
theorem runOperationCompletes : Obligations.RunOperationCompletes := by
  unfold Obligations.RunOperationCompletes
  intro s o ho
  have hexec : exec .runOperationComplete s = execRunOperationComplete s := rfl
  unfold execRunOperationComplete at hexec
  simp only [ho] at hexec
  refine ⟨fun h => hexec.trans (if_neg h), ?_⟩
  intro h result code fields notice
  refine ⟨s.completeOperation o, hexec.trans (if_pos h), ?_, fun k => ?_, fun hwhat => ?_, fun hwhat => ?_⟩
  · obtain ⟨port, tag, previous, what, stage⟩ := o
    cases what <;> rfl
  · have hcode : o.what.code = code := by
      cases hw : o.what <;> simp only [code, hw] <;> rfl
    have hresult : o.what.result = result := by
      cases hw : o.what <;> simp only [result, hw] <;> rfl
    have hfields : s.completionFields o.what = fields := by
      cases hw : o.what <;> simp only [fields, hw] <;> rfl
    have hports : (s.settleRun o.what).ports = s.ports := by
      cases o.what <;> rfl
    have hget : ((s.completeOperation o).ports.get k)
        = ((((s.settleRun o.what).modPort o.port fun q =>
          q.respond o.what.code o.tag .ok (s.completionFields o.what)).ports.get k).offer
          (.runState o.previous o.what.result s.run.number o.port)) := State.offer_get _ _ _
    rw [hget, hcode, hresult, hfields]
    by_cases hk : k = o.port
    · subst hk
      rw [State.modPort_get_same, if_pos rfl, hports]
    · rw [State.modPort_get_ne _ hk, if_neg hk, hports]
  · obtain ⟨port, tag, previous, what, stage⟩ := o
    cases what with
    | finish => exact absurd rfl hwhat
    | start | pause | resume => exact ⟨rfl, rfl⟩
  · obtain ⟨port, tag, previous, what, stage⟩ := o
    obtain rfl : what = .finish := hwhat
    refine ⟨rfl, ?_⟩
    change s.store.takeUpLimits = _
    unfold Store.takeUpLimits
    cases hstaged : s.store.stagedLim with
    | true => rfl
    | false =>
      have hkeeps : s.store = { s.store with stagedLim := false } := by rw [← hstaged]
      exact hkeeps

/-! ## Position Fix (R33 to R36) -/

theorem RunControl.startWaiting_eq (c : RunControl) : c.startWaiting =
    match c.op with
      | some ⟨_, _, _, .start _ _ _, .recordWaiting⟩ => true
      | _ => false := by
  unfold RunControl.startWaiting
  cases c.op with
  | none => rfl
  | some o =>
    obtain ⟨port, tag, previous, what, stage⟩ := o
    cases what <;> cases stage <;> rfl

/-- Settles O12: the checks one after another, and what an accepted fix replaces. -/
theorem positionFixOutcomes : Obligations.PositionFixOutcomes := by
  unfold Obligations.PositionFixOutcomes
  intro s p tag f pos force rest hf hpos r hd b e refused counted
  have hfront := hd.2.2
  have h0 : r.field 0 4 = f := by
    have := Request.field_at (n := 4) 11 tag [] (leNat 4 pos ++ [force]) rfl hf
    simpa [r, List.append_assoc] using this
  have h4 : r.field 4 4 = pos := by
    have := Request.field_at (n := 4) 11 tag (leNat 4 f) [force] (off := 4) (by simp) hpos
    simpa [r, List.append_assoc] using this
  have h8 : r.field 8 1 = force.toNat := by
    have := Request.field_byte_at 11 tag (leNat 4 f ++ leNat 4 pos) [] force (off := 8) (by simp)
    simpa [r] using this
  have hforce : (r.field 8 1 != 0) = (force != 0) := by
    rw [h8, Bool.eq_iff_iff, bne_iff_ne, bne_iff_ne, ne_eq, ne_eq, ← BitVec.toNat_inj]
    rfl
  have herror : s.base.fixError s.store.committed.sampling.interval f pos = e := by
    cases ho : s.base.orientation <;> simp [DistanceBase.fixError, DistanceBase.rawPosition, Orientation.sign, e, b, ho]
  change execPositionFix p s = _
  unfold execPositionFix
  rw [State.serve_of_length (code := 11) hd rfl (by simp [r])]
  dsimp only
  rw [hforce, h0, h4, herror]
  refine congrArg Host.Outcome.next ?_
  refine if_congr (by simp) (State.refuse_of_front hfront _) ?_
  refine if_congr s.requestRunState_idle_iff (State.refuse_of_front hfront _) ?_
  by_cases hf0 : f = 0
  · simp only [badFixField, if_pos hf0]
    exact State.refuseField_of_front hfront 0
  by_cases hp1 : 999999999 < pos
  · simp only [badFixField, if_neg hf0, if_pos hp1]
    exact State.refuseField_of_front hfront 1
  simp only [badFixField, if_neg hf0, if_neg hp1]
  refine if_congr Iff.rfl (State.answer_of_front (by exact hfront) _ _) ?_
  refine if_congr Iff.rfl (State.answer_of_front (by exact hfront) _ _) ?_
  refine if_congr ?_ (State.answer_of_front (by exact hfront) _ _) ?_
  · rw [Bool.and_eq_true, Bool.not_eq_true', bne_eq_false_iff_eq, decide_eq_true_eq, Int.abs_eq_natAbs,
      Int.ofNat_lt]
  · rw [State.answerOk_of_front (by exact hfront), RunControl.startWaiting_eq] <;> rfl

end Sys2Proof.Machine
end

section
/-! PROOFS. The append port (10.2): the grant in rotation, and what an append leaves. -/

namespace Sys2Proof.Machine

/-! ## The grant (R163) -/

theorem State.firstWaiting_eq (s : State) (n : Nat) (w : Writer) :
    s.firstWaiting n w = (List.iterate Writer.next w n).find? (fun x => (s.waiting x).isSome) := by
  induction n generalizing w with
  | zero => rfl
  | succ n ih =>
    rw [State.firstWaiting, List.iterate, List.find?_cons, ih]
    cases (s.waiting w).isSome <;> rfl

/-- With none granted, the first writer of the rotation with a record waiting is granted (R163). -/
theorem State.nextGrant_eq_some_iff {s : State} (h : s.ring.granted = none) (w : Writer) : s.nextGrant = some w ↔
    ∃ before after, List.iterate Writer.next s.ring.rotation.next 5 = before ++ w :: after
      ∧ (∀ x ∈ before, s.waiting x = none) ∧ s.waiting w ≠ none := by
  rw [State.nextGrant, h]
  dsimp only
  rw [State.firstWaiting_eq, List.find?_eq_some_iff_append]
  constructor
  · rintro ⟨hw, before, after, hsplit, hbefore⟩
    exact ⟨before, after, hsplit, fun x hx => by simpa using hbefore x hx, Option.isSome_iff_ne_none.mp hw⟩
  · rintro ⟨before, after, hsplit, hbefore, hw⟩
    exact ⟨Option.isSome_iff_ne_none.mpr hw, before, after, hsplit, fun x hx => by simp [hbefore x hx]⟩

/-! ## The telling of a writer (R163) -/

/-- The evaluation or the truncation in progress reads neither the ring nor the ports. -/
theorem State.goOn_withRing (s : State) (ring : Ring) (ports : PerPort PortState) :
    State.goOn { s with ring := ring, ports := ports } = { s.goOn with ring := ring, ports := ports } := by
  unfold State.goOn
  dsimp only
  split
  · rfl
  · rfl
  · unfold State.truncateFrom
    dsimp only
    have hact (act : Nat → Tracker → Tally → Tracker × Tally) (next : Nat) (rest : Nat → Turn) :
        State.actFrom { s with ring := ring, ports := ports } act next rest
          = { s.actFrom act next rest with ring := ring, ports := ports } := rfl
    rw [hact]
    split <;> rfl

theorem Ring.append_contents (r : Ring) (w : Writer) (n : Nat) (b : Record) :
    (r.contents.length < 8192 → (r.append w n b).oldest = r.oldest
        ∧ (r.append w n b).contents = r.contents ++ [⟨r.head, n, b⟩])
    ∧ (8192 ≤ r.contents.length → (r.append w n b).oldest = r.oldest + 1
        ∧ (r.append w n b).contents = r.contents.tail ++ [⟨r.head, n, b⟩]) := by
  refine ⟨fun h => ?_, fun h => ?_⟩
  · rw [Ring.append_of_room r w n b h]
    exact ⟨rfl, rfl⟩
  · rw [Ring.append_of_full r w n b h]
    exact ⟨rfl, rfl⟩

/-- Run control told of its record while its operation waits for it, and otherwise (R150, R152, R154, R155). -/
theorem RunControl.told_of_waiting {c : RunControl} {o : Operation} (ho : c.op = some o)
    (hstage : o.stage = .recordWaiting) : c.told = match o.what with
      | .start _ _ _ => { c with op := some { o with stage := .starting false false false } }
      | .resume => { c with op := some { o with stage := .geometryResuming }, state := .running }
      | .pause _ | .finish => { c with op := some { o with stage := .completing } } := by
  unfold RunControl.told
  rw [ho]
  dsimp only
  rw [hstage] <;> rfl

theorem RunControl.told_of_other {c : RunControl} (h : ∀ o, c.op = some o → o.stage ≠ .recordWaiting) :
    c.told = c := by
  unfold RunControl.told
  split
  · rfl
  · next o ho =>
    split
    · next hstage => exact absurd hstage (h o ho)
    · rfl

theorem RunControl.told_frame (c : RunControl) :
    c.told.number = c.number ∧ c.told.closing = c.closing ∧ c.told.summary = c.summary := by
  unfold RunControl.told
  split
  · exact ⟨rfl, rfl, rfl⟩
  · split
    · split <;> exact ⟨rfl, rfl, rfl⟩
    · exact ⟨rfl, rfl, rfl⟩

/-- A record of the geometry unit at the append port is its first POINT record. -/
theorem State.waiting_geometry {s : State} {b : Record} (h : s.waiting .geometry = some b) :
    ∃ r rest, s.geo.out = r :: rest ∧ b = .point r := by
  unfold State.waiting at h
  cases hout : s.geo.out with
  | nil => simp [hout] at h
  | cons r rest => exact ⟨r, rest, rfl, by simpa [hout] using h.symm⟩

/-- Telling a writer reads neither the ring nor the ports. -/
theorem State.tellWriter_withRing (s : State) (ring : Ring) (ports : PerPort PortState) (w : Writer) :
    State.tellWriter { s with ring := ring, ports := ports } w
      = { s.tellWriter w with ring := ring, ports := ports } := by
  cases w with
  | exceedance => exact State.goOn_withRing { s with exc := s.exc.told } ring ports
  | geometry | marking | base | runControl => rfl

/-- What the telling of a writer leaves unchanged whoever it is (R163). -/
theorem State.tellWriter_frame (s : State) (w : Writer) :
    (s.tellWriter w).tach = s.tach ∧ (s.tellWriter w).lanes = s.lanes ∧ (s.tellWriter w).pending = s.pending
      ∧ (s.tellWriter w).time = s.time ∧ (s.tellWriter w).strobe = s.strobe
      ∧ (s.tellWriter w).resampler = s.resampler ∧ (s.tellWriter w).resetPending = s.resetPending := by
  cases w with
  | exceedance =>
    simp only [State.tellWriter]
    rw [State.goOn_frame]
    exact ⟨rfl, rfl, rfl, rfl, rfl, rfl, rfl⟩
  | geometry | marking | base | runControl => exact ⟨rfl, rfl, rfl, rfl, rfl, rfl, rfl⟩

/-- What the telling of the exceedance unit leaves to the other writers (R163). -/
theorem State.tellWriter_exceedance_others (s : State) :
    (s.tellWriter .exceedance).geo = s.geo ∧ (s.tellWriter .exceedance).base = s.base
      ∧ (s.tellWriter .exceedance).run = s.run := by
  simp only [State.tellWriter]
  rw [State.goOn_frame]
  exact ⟨rfl, rfl, rfl⟩

/-- What the telling of run control leaves of it (R150, R152, R154, R155). -/
theorem RunControl.told_cases (c : RunControl) :
    ((∀ o, c.op = some o → o.stage ≠ .recordWaiting) → c.told.op = c.op ∧ c.told.state = c.state)
    ∧ ∀ o, c.op = some o → o.stage = .recordWaiting →
      (∀ position orientation cls, o.what = .start position orientation cls →
        c.told.op = some { o with stage := .starting false false false } ∧ c.told.state = c.state)
      ∧ (o.what = .resume → c.told.op = some { o with stage := .geometryResuming } ∧ c.told.state = .running)
      ∧ ((∃ j, o.what = .pause j) ∨ o.what = .finish →
        c.told.op = some { o with stage := .completing } ∧ c.told.state = c.state) := by
  refine ⟨fun h => ?_, fun o ho hstage => ?_⟩
  · rw [RunControl.told_of_other h]
    exact ⟨rfl, rfl⟩
  · rw [RunControl.told_of_waiting ho hstage]
    refine ⟨fun position orientation cls hwhat => ?_, fun hwhat => ?_, ?_⟩
    · rw [hwhat]
      exact ⟨rfl, rfl⟩
    · rw [hwhat]
      exact ⟨rfl, rfl⟩
    · rintro (⟨j, hwhat⟩ | hwhat)
      · rw [hwhat]
        exact ⟨rfl, rfl⟩
      · rw [hwhat]
        exact ⟨rfl, rfl⟩

/-- Settles O41: the grant is the first waiting writer of the rotation, and an append is the ring's, the
refills', and then the telling of the writer. -/
theorem appendPortGrantsInRotation : Obligations.AppendPortGrantsInRotation := by
  unfold Obligations.AppendPortGrantsInRotation
  refine ⟨?grant, ?idle, ?append⟩
  case grant =>
    intro s next w1
    refine ⟨fun w hw => State.grant_of_some hw, fun hnone => ⟨rfl, fun w => ?_⟩⟩
    have hnext : next = Writer.next := funext fun x => by cases x <;> rfl
    simp only [w1, hnext]
    exact State.nextGrant_eq_some_iff hnone w
  case idle =>
    intro s hnone hall
    change execRingAppend s = _
    unfold execRingAppend
    cases hg : s.nextGrant with
    | none => rfl
    | some w => exact absurd (hall w) ((State.nextGrant_of_none hnone).1 w hg)
  case append =>
    intro s w b hw hb
    have hexec : exec .ringAppend s = .next (s.appendRecord w b).grant := by
      change execRingAppend s = _
      unfold execRingAppend
      rw [show s.nextGrant = some w from hw]
      dsimp only
      rw [hb]
    set ring := s.ring.append w s.run.number b with hring
    set ports := s.ports.map (fun q => q.refillActive ring) with hports
    obtain ⟨hroom, hfull⟩ := s.ring.append_contents w s.run.number b
    obtain ⟨htach, hlanes, hpending, htime, hstrobe, hresampler, hreset⟩ := s.tellWriter_frame w
    obtain ⟨hgeoE, hbaseE, hrunE⟩ := s.tellWriter_exceedance_others
    refine ⟨s.appendRecord w b, hexec, ?_⟩
    have ht : s.appendRecord w b = { s.tellWriter w with ring := ring, ports := ports } :=
      s.tellWriter_withRing ring ports w
    rw [ht]
    refine ⟨rfl, rfl, rfl, hroom, hfull, fun p => ?ports, ?geo, ?exceedanceOut, ?others, ?handed, ?markingOut, ?baseOut,
      ?notRun, ?run, htach, hlanes, hpending, htime, hstrobe, hresampler, hreset⟩
    case ports => exact PerPort.get_map _ _ _
    case geo =>
      cases w with
      | exceedance => exact hgeoE
      | geometry | marking | base | runControl => rfl
    case exceedanceOut =>
      rintro rfl
      intro told
      refine ⟨rfl, rfl, rfl, fun hturn => ?_⟩
      have hturn' : told.exc.turn = none := hturn
      unfold State.goOn
      rw [hturn']
    case others =>
      intro hne
      cases w with
      | exceedance => exact absurd rfl hne
      | geometry =>
        refine ⟨rfl, ?_⟩
        obtain ⟨r, rest, hout, -⟩ := State.waiting_geometry hb
        simp only [State.tellWriter, hout]
        rfl
      | marking | base | runControl => exact ⟨rfl, rfl⟩
    case handed =>
      rintro rfl
      obtain ⟨r, rest, hout, hbr⟩ := State.waiting_geometry hb
      refine ⟨r, hbr, ?_⟩
      simp only [State.tellWriter, hout]
      rfl
    case markingOut =>
      intro hne
      cases w with
      | exceedance => exact absurd rfl hne
      | geometry | marking | base | runControl => rfl
    case baseOut =>
      cases w with
      | exceedance => exact hbaseE
      | geometry | marking | base | runControl => rfl
    case notRun =>
      intro hne
      cases w with
      | runControl => exact absurd rfl hne
      | exceedance => exact hrunE
      | geometry | marking | base => rfl
    case run =>
      rintro rfl
      obtain ⟨hother, hwaiting⟩ := s.run.told_cases
      obtain ⟨hnumber, hclosing, hsummary⟩ := s.run.told_frame
      exact ⟨rfl, hnumber, hclosing, hsummary, hother, hwaiting⟩

end Sys2Proof.Machine
end

section
/-! PROOFS. Sensor lanes and sample sets (03, 04): the release of a set, the requests on lanes, and the values
of a set and of a point. -/

namespace Sys2Proof.Machine

/-! ## The release of a set (R55, R65, R66) -/

/-- A release is the scoring of the lanes, the notices of the changes, and the hand-over (R66). -/
theorem State.releaseSet_eq (s : State) (x : SampleSet) : s.releaseSet x =
    State.handToResampler
      { s with
        lanes := { s.lanes with
          lane := scoreLanes s.lanes.lane x, latePending := false, sets := s.lanes.sets.tail }
        ports := s.portsOffered (laneChanges s.lanes.lane (scoreLanes s.lanes.lane x)) }
      { x with late := s.lanes.latePending, condition := .released } := by
  unfold State.releaseSet
  dsimp only
  rw [offerAll_eq, laneNotices_eq]
  rfl

theorem scoreLanes_get (lanes : PerLane LaneReceiver) (x : SampleSet) (l : Lane) :
    (scoreLanes lanes x).get l = (lanes.get l).score (x.slots.get l).isSome := by
  cases l <;> rfl

/-- What a release tests of the front set (R65). -/
theorem State.releasable_iff (s : State) (x : SampleSet) : s.releasable x = true ↔
    x.condition = .closed ∧ x.strobe = s.resampler.nextRelease ∧ x.items ≠ none
      ∧ ∀ i ∈ s.base.inbox, i.strobe ≠ x.strobe := by
  unfold State.releasable DistanceBase.hasTaken
  simp only [Bool.and_eq_true, beq_iff_eq, List.all_eq_true, bne_iff_ne, Option.isSome_iff_ne_none, and_assoc]

/-- Settles O14: the score of each state, the release field by field, and the test of the front set. -/
theorem laneScoreAtRelease : Obligations.LaneScoreAtRelease := by
  unfold Obligations.LaneScoreAtRelease
  refine ⟨?score, ?release, ?order⟩
  case score =>
    intro s x l r r' hit
    have hr' : r' = r.score hit := by
      simp only [r', State.releaseSet_eq]
      exact scoreLanes_get _ _ _
    have hscore : r.score hit = match r.state with
        | .off => r
        | .locked =>
          if hit then { r with misses := 0 }
          else if r.misses + 1 = 16
            then { r with missing := satInc 65535 r.missing, state := .lost, hits := 0, misses := 0 }
            else { r with missing := satInc 65535 r.missing, misses := r.misses + 1 }
        | .seeking | .lost =>
          if hit then
            if r.hits + 1 = 4 then { r with state := .locked, hits := 0, misses := 0 }
            else { r with hits := r.hits + 1 }
          else { r with hits := 0 } := by
      unfold LaneReceiver.score
      cases r.state <;> rfl
    rw [hr', hscore]
    refine ⟨fun h => ?_, ?_, ?_, fun h hhit => ?_, fun h hhit => ?_⟩
    · rw [h]
    · rintro (h | h) hhit <;> rw [h, hhit] <;> rfl
    · rintro (h | h) hhit <;> rw [h, hhit] <;> rfl
    · rw [h, hhit]
      rfl
    · rw [h, hhit]
      rfl
  case release =>
    intro s x t released
    have ht : t = _ := s.releaseSet_eq x
    have hbase : t.base = { s.base with queue := s.base.queue.filter (fun e => e.strobe != x.strobe) } := by
      rw [ht]
      rfl
    have hgeo : t.geo = { s.geo with inbox := s.geo.inbox
        ++ (s.base.queue.filter (fun e => e.strobe == x.strobe)).map (resample s.resampler.held released) } := by
      rw [ht]
      rfl
    have hne : (fun e : PointEntry => e.strobe != x.strobe) = fun e => decide (e.strobe ≠ x.strobe) := by
      funext e
      rw [Bool.eq_iff_iff, bne_iff_ne, decide_eq_true_iff]
    rw [hne] at hbase
    have hports : t.ports = s.portsOffered (laneChanges s.lanes.lane t.lanes.lane) := by
      rw [ht]
      rfl
    refine ⟨?_, ?_, ?_, ?_, hbase, hgeo, hports, ?_⟩
    all_goals rw [ht]
    · rfl
    · rfl
    · rfl
    · rfl
    · exact ⟨rfl, rfl, rfl, rfl, rfl, rfl, rfl, rfl, rfl, rfl⟩
  case order =>
    intro s next ready
    refine ⟨fun h => ?_, fun x rest h => ?_⟩
    · unfold State.releaseReady
      rw [h]
      rfl
    · have hchain : s.releaseReady = if s.releasable x then (s.releaseSet x).releaseChain rest else s := by
        unfold State.releaseReady
        rw [h]
        rfl
      have hready : s.releasable x = true ↔ ready x := s.releasable_iff x
      refine ⟨fun hx => ?_, fun hx => hchain.trans (if_neg (hx ∘ hready.mp))⟩
      rw [hchain, if_pos (hready.mpr hx)]
      have hsets : (s.releaseSet x).lanes.sets = rest := by
        rw [State.releaseSet_eq]
        exact congrArg List.tail h
      rw [State.releaseReady, hsets]

end Sys2Proof.Machine
end

section
/-! PROOFS. The values of a set and of a point (3.3, 4.4), and the requests on lanes (3.4, 3.6). -/

namespace Sys2Proof.Machine

/-! ## Rounding to the nearest integer (00) -/

/-- A rounded quotient of a number that is not negative lies above the exact one by at most a half, and below
it by less. -/
theorem roundDiv_of_nonneg {n d : Int} (hn : 0 ≤ n) (hd : 0 < d) :
    0 ≤ roundDiv n d ∧ 2 * (roundDiv n d * d) ≤ 2 * n + d ∧ 2 * n < 2 * (roundDiv n d * d) + d := by
  unfold roundDiv
  rw [if_pos hn]
  have h2 : 0 < 2 * d := by omega
  have hle := Int.ediv_mul_le (2 * n + d) h2.ne'
  have hlt := Int.lt_ediv_add_one_mul_self (2 * n + d) h2
  have hq : 0 ≤ (2 * n + d) / (2 * d) := Int.ediv_nonneg (by omega) h2.le
  refine ⟨hq, ?_, ?_⟩
  · linarith
  · linarith

theorem roundDiv_of_neg {n d : Int} (hn : n < 0) : roundDiv n d = -roundDiv (-n) d := by
  unfold roundDiv
  rw [if_neg (by omega), if_pos (by omega), mul_neg]

/-- The rounded quotient is nearest to the exact one, and at a half it is the one away from zero. -/
theorem roundDiv_nearest (n : Int) {d : Int} (hd : 0 < d) : 2 * |roundDiv n d * d - n| ≤ d
    ∧ (2 * |roundDiv n d * d - n| = d → |n| < |roundDiv n d * d|) := by
  rcases le_or_gt 0 n with hn | hn
  · obtain ⟨hq, hle, hlt⟩ := roundDiv_of_nonneg hn hd
    have hp : 0 ≤ roundDiv n d * d := mul_nonneg hq hd.le
    rw [abs_of_nonneg hn, abs_of_nonneg hp]
    rcases abs_cases (roundDiv n d * d - n) with ⟨he, -⟩ | ⟨he, -⟩ <;> rw [he] <;> omega
  · obtain ⟨hq, hle, hlt⟩ := roundDiv_of_nonneg (n := -n) (by omega) hd
    have hp : 0 ≤ roundDiv (-n) d * d := mul_nonneg hq hd.le
    rw [roundDiv_of_neg hn, neg_mul, abs_of_neg hn, abs_neg, abs_of_nonneg hp]
    rcases abs_cases (-(roundDiv (-n) d * d) - n) with ⟨he, -⟩ | ⟨he, -⟩ <;> rw [he] <;> omega

/-- A rounded share of a difference is within it: a share of at most the whole moves no further than it. -/
theorem roundDiv_share {k t d : Int} (ht : 0 < t) (htd : t ≤ d) :
    min 0 k ≤ roundDiv (k * t) d ∧ roundDiv (k * t) d ≤ max 0 k := by
  have hd : 0 < d := by omega
  have hbound {k : Int} (hk : 0 ≤ k) : 0 ≤ roundDiv (k * t) d ∧ roundDiv (k * t) d ≤ k := by
    obtain ⟨hq, hle, -⟩ := roundDiv_of_nonneg (mul_nonneg hk ht.le) hd
    refine ⟨hq, ?_⟩
    have hkt : k * t ≤ k * d := mul_le_mul_of_nonneg_left htd hk
    by_contra hgt
    have : (k + 1) * d ≤ roundDiv (k * t) d * d := mul_le_mul_of_nonneg_right (by omega) hd.le
    rw [add_mul, one_mul] at this
    omega
  rcases lt_trichotomy k 0 with hk | rfl | hk
  · obtain ⟨h0, h1⟩ := hbound (k := -k) (by omega)
    rw [roundDiv_of_neg (mul_neg_of_neg_of_pos hk ht), ← neg_mul]
    omega
  · obtain ⟨h0, h1⟩ := hbound (k := 0) le_rfl
    omega
  · obtain ⟨h0, h1⟩ := hbound hk.le
    omega

theorem roundDiv_whole (k : Int) {d : Int} (hd : 0 < d) : roundDiv (k * d) d = k := by
  obtain ⟨hle, -⟩ := roundDiv_nearest (k * d) hd
  rw [← sub_mul, abs_mul, abs_of_pos hd] at hle
  have hz : |roundDiv (k * d) d - k| < 1 := by
    by_contra hge
    have := mul_le_mul_of_nonneg_right (not_lt.mp hge) hd.le
    omega
  have := abs_lt.mp hz
  omega

/-! ## The values of a set and of a point (R48 to R51, R68, R69) -/

/-- The values of a set are those of its slots, lane by lane (R48 to R51). -/
theorem processSlots_eq (c : CalibrationImage) (slots : PerLane (Option Reading)) :
    ((processSlots c slots).dL, (processSlots c slots).vL) = (slots.sl0.map (processHead c.left)).getD (none, none)
    ∧ ((processSlots c slots).dR, (processSlots c slots).vR)
      = (slots.sl1.map (processHead c.right)).getD (none, none)
    ∧ ((processSlots c slots).zL, (processSlots c slots).zR, (processSlots c slots).w, (processSlots c slots).phi)
      = (slots.sl2.map (processInertial c)).getD (none, none, none, none)
    ∧ (processSlots c slots).aux = slots.sl3.bind processAux := ⟨rfl, rfl, rfl, rfl⟩

theorem processHead_head (c : HeadCalibration) (st : Byte) (d v : Int) : processHead c ⟨st, .head d v⟩ =
    if st.getLsbD 0 = true then (none, none)
    else (processed (-32768) c.dPolarity c.dOffset d, processed (-32768) c.vPolarity c.vOffset v) := rfl

theorem processInertial_inertial (c : CalibrationImage) (st : Byte) (zL zR w phi : Int) :
    processInertial c ⟨st, .inertial zL zR w phi⟩ =
    if st.getLsbD 0 = true then (none, none, none, none)
    else (processed (-2147483648) 1 c.zLOffset zL, processed (-2147483648) 1 c.zROffset zR,
      processed (-2147483648) c.wPolarity c.wOffset w, processed (-2147483648) c.phiPolarity c.phiOffset phi) := rfl

theorem processAux_aux (st : Byte) (x : Int) : processAux ⟨st, .aux x⟩ =
    if st = 0 ∧ x ≠ -32768 then some x else none := by
  have h : processAux ⟨st, .aux x⟩ = if st = 0 then processed (-32768) 1 0 x else none := rfl
  rw [h, processed, one_mul, add_zero]
  by_cases hst : st = 0
  · rw [if_pos hst]
    by_cases hx : x = -32768
    · rw [if_pos hx, if_neg fun h => h.2 hx]
    · rw [if_neg hx, if_pos ⟨hst, hx⟩]
  · rw [if_neg hst, if_neg fun h => hst h.1]

/-- Settles O16: the rounded quotient of R68 is nearest and within the two sides; the rest is what the model's
functions form. -/
theorem interpolatedValue : Obligations.InterpolatedValue := by
  unfold Obligations.InterpolatedValue
  refine ⟨fun e l r => rfl, ?absent, ?between, ?sample, ?slots⟩
  case absent =>
    intro e v
    cases v <;> exact ⟨rfl, rfl⟩
  case between =>
    intro e x y hlt hle
    have hd : 0 < e.right - e.left := by omega
    have ht : 0 < e.target - e.left := by omega
    obtain ⟨hnear, haway⟩ := roundDiv_nearest ((y - x) * (e.target - e.left)) hd
    obtain ⟨hlow, hhigh⟩ := roundDiv_share (k := y - x) ht (by omega : e.target - e.left ≤ e.right - e.left)
    refine ⟨_, rfl, by omega, by omega, fun hend => ?_, hnear, haway⟩
    rw [hend, roundDiv_whole _ hd]
    omega
  case sample =>
    intro held x i j e hi hj p
    have hflags : p.flags = i.flags.union j.flags := by
      simp [p, resample, SampleSet.tachFlags, hi, hj]
    have hspeed : p.speed = j.speed := by simp [p, resample, SampleSet.speed, hj]
    refine ⟨rfl, rfl, rfl, rfl, rfl, rfl, hspeed, ?_, ?_, ?_, ?_, rfl, fun l => by cases l <;> rfl⟩
    all_goals
      rw [hflags]
      rfl
  case slots =>
    intro c slots v of least
    obtain ⟨hleft, hright, hinertial, haux⟩ := processSlots_eq c slots
    refine ⟨fun h => ?_, fun h => ?_, fun h => ?_, fun h => ?_, fun st d x h => ?_, fun st d x h => ?_,
      fun st zL zR w phi h => ?_, fun st x h => ?_⟩
    · rw [h] at hleft
      exact Prod.mk.inj hleft
    · rw [h] at hright
      exact Prod.mk.inj hright
    · rw [h] at hinertial
      simpa using hinertial
    · rw [h] at haux
      exact haux
    · rw [h] at hleft
      replace hleft := hleft.trans (processHead_head c.left st d x)
      refine ⟨fun hst => ?_, fun hst => ?_⟩
      · rw [if_pos hst] at hleft
        exact Prod.mk.inj hleft
      · rw [if_neg (Bool.not_eq_true _ ▸ hst)] at hleft
        exact Prod.mk.inj hleft
    · rw [h] at hright
      replace hright := hright.trans (processHead_head c.right st d x)
      refine ⟨fun hst => ?_, fun hst => ?_⟩
      · rw [if_pos hst] at hright
        exact Prod.mk.inj hright
      · rw [if_neg (Bool.not_eq_true _ ▸ hst)] at hright
        exact Prod.mk.inj hright
    · rw [h] at hinertial
      replace hinertial := hinertial.trans (processInertial_inertial c st zL zR w phi)
      refine ⟨fun hst => ?_, fun hst => ?_⟩
      · rw [if_pos hst] at hinertial
        simpa only [Prod.mk.injEq] using hinertial
      · rw [if_neg (Bool.not_eq_true _ ▸ hst)] at hinertial
        simp only [Prod.mk.injEq] at hinertial
        exact hinertial
    · rw [h] at haux
      replace haux := haux.trans (processAux_aux st x)
      refine ⟨?_, fun hst hx => haux.trans (if_pos ⟨hst, hx⟩)⟩
      rintro (hst | hx)
      · exact haux.trans (if_neg fun h => hst h.1)
      · exact haux.trans (if_neg fun h => h.2 hx)

/-! ## The requests on lanes (R54, R58, R59) -/

theorem laneOf_code (l : Lane) : laneOf (laneCode l) = some l := by
  cases l <;> rfl

theorem laneOf_eq_none {n : Nat} (h : 3 < n) : laneOf n = none := by
  obtain ⟨m, rfl⟩ := Nat.exists_eq_add_of_le' h
  rfl

/-- The field of a processed value, absent or not (R48, R49, R200). -/
theorem absentField_processed (size : Nat) (noValue polarity offset raw : Int) :
    absentField size (processed noValue polarity offset raw)
      = ⟨size, if raw = noValue then -(256 : Int) ^ size / 2 else polarity * raw + offset⟩ := by
  unfold processed
  split <;> rfl

/-- The processed fields of a rail head's reading (R48, R59). -/
theorem processedFields_head (c : CalibrationImage) (l : Lane) (st : Byte) (d v : Int) :
    processedFields c l ⟨st, .head d v⟩ =
      let head := if l = .sl1 then c.right else c.left
      [absentField 4 (if st.getLsbD 0 = true then none else processed (-32768) head.dPolarity head.dOffset d),
        absentField 4 (if st.getLsbD 0 = true then none else processed (-32768) head.vPolarity head.vOffset v)] := by
  have hhead : processedFields c l ⟨st, .head d v⟩ =
      let x := processHead (if l = .sl1 then c.right else c.left) ⟨st, .head d v⟩
      [absentField 4 x.1, absentField 4 x.2] := by
    cases l <;> rfl
  rw [hhead, processHead_head]
  dsimp only
  split <;> rfl

/-- The processed fields of the inertial unit's reading (R49, R59). -/
theorem processedFields_inertial (c : CalibrationImage) (l : Lane) (st : Byte) (zL zR w phi : Int) :
    processedFields c l ⟨st, .inertial zL zR w phi⟩ =
      let field (polarity offset raw : Int) : Field :=
        absentField 8 (if st.getLsbD 0 = true then none else processed (-2147483648) polarity offset raw)
      [field 1 c.zLOffset zL, field 1 c.zROffset zR, field c.wPolarity c.wOffset w,
        field c.phiPolarity c.phiOffset phi] := by
  have hinertial : processedFields c l ⟨st, .inertial zL zR w phi⟩ =
      let x := processInertial c ⟨st, .inertial zL zR w phi⟩
      [absentField 8 x.1, absentField 8 x.2.1, absentField 8 x.2.2.1, absentField 8 x.2.2.2] := rfl
  rw [hinertial, processInertial_inertial]
  dsimp only
  split <;> rfl

/-- The processed field of the auxiliary reading (R50, R59). -/
theorem processedFields_aux (c : CalibrationImage) (l : Lane) (st : Byte) (x : Int) :
    processedFields c l ⟨st, .aux x⟩ = [⟨2, if st = 0 then x else -32768⟩] := by
  have haux : processedFields c l ⟨st, .aux x⟩ = [absentField 2 (processAux ⟨st, .aux x⟩)] := rfl
  rw [haux, processAux_aux]
  by_cases hst : st = 0
  · by_cases hx : x = -32768
    · rw [if_neg fun h => h.2 hx, if_pos hst, hx]
      rfl
    · rw [if_pos ⟨hst, hx⟩, if_pos hst]
      rfl
  · rw [if_neg fun h => hst h.1, if_neg hst]
    rfl

/-- A lane receiver whose sticky flag is cleared when the mask names its lane (R54). -/
theorem LaneReceiver.clearSticky_eq (r : LaneReceiver) (p : Port) (named : Bool) : r.clearSticky p named =
    { r with sticky := if named then r.sticky.set p false else r.sticky } := by
  cases named <;> rfl

/-- Settles O15: the lane is found or not, and the body is that of the lane's last frame. -/
theorem laneRequests : Obligations.LaneRequests := by
  unfold Obligations.LaneRequests
  intro s p tag n rest
  refine ⟨?health, ?sample, ?clear⟩
  case health =>
    intro hd
    have hexec : exec (.readLaneHealth p) s = .next (match laneOf n.toNat with
        | none => s.replied p ⟨19, tag, [n]⟩ rest .invalidField [natField 2 0]
        | some l => s.replied p ⟨19, tag, [n]⟩ rest .ok (laneHealthFields (s.lanes.lane.get l) p)) := by
      change execReadLaneHealth p s = _
      unfold execReadLaneHealth
      rw [State.serve_of_length (code := 19) (n := 1) hd rfl rfl, Request.field_first]
      cases laneOf n.toNat with
      | none => exact congrArg Host.Outcome.next (State.refuseField_of_front hd.2.2 _)
      | some l => exact congrArg Host.Outcome.next (State.answerOk_of_front hd.2.2 _)
    refine ⟨fun hn => ?_, fun l hl => ⟨_, ?_, rfl⟩⟩
    · rw [hexec, laneOf_eq_none hn]
    · rw [hexec, hl, laneOf_code]
      rfl
  case sample =>
    intro hd
    have hexec : exec (.readLaneSample p) s = .next (if (s.access p).rawRead then
        match laneOf n.toNat with
        | none => s.replied p ⟨21, tag, [n]⟩ rest .invalidField [natField 2 0]
        | some l => s.replied p ⟨21, tag, [n]⟩ rest .ok
            (laneSampleFields s.store.installedCal l (s.lanes.lane.get l))
        else s.replied p ⟨21, tag, [n]⟩ rest .notPermitted []) := by
      change execReadLaneSample p s = _
      unfold execReadLaneSample
      rw [State.serve_of_length (code := 21) (n := 1) hd rfl rfl, Request.field_first]
      refine congrArg Host.Outcome.next (if_congr Iff.rfl ?_ (State.refuse_of_front hd.2.2 _))
      cases laneOf n.toNat with
      | none => exact State.refuseField_of_front hd.2.2 _
      | some l => exact State.answerOk_of_front hd.2.2 _
    refine ⟨fun hraw => ?_, fun hraw hn => ?_, fun hraw l hl =>
      ⟨laneSampleFields s.store.installedCal l (s.lanes.lane.get l), ?_, ?_⟩⟩
    · rw [hexec, hraw]
      rfl
    · rw [hexec, hraw, laneOf_eq_none hn]
      rfl
    · rw [hexec, hraw, hl, laneOf_code]
      rfl
    · intro r cal
      refine ⟨fun hlast => ?_, ?_⟩
      · unfold laneSampleFields
        simp [r, hlast]
      intro f hlast st start value four eight
      have hfields : laneSampleFields s.store.installedCal l (s.lanes.lane.get l)
          = start ++ f.reading.payload.rawFields ++ processedFields cal l f.reading := by
        have : (s.lanes.lane.get l).last = some f := hlast
        unfold laneSampleFields
        simp [start, r, this, st, cal]
      have hvalue (size : Nat) (noValue polarity offset raw : Int) :
          absentField size (if st.getLsbD 0 = true then none else processed noValue polarity offset raw)
            = value size (-(256 : Int) ^ size / 2) noValue polarity offset raw := by
        by_cases hst : st.getLsbD 0 = true
        · simp only [value, if_pos hst, if_pos (Or.inl hst)]
          rfl
        · simp only [value, if_neg hst, absentField_processed, or_iff_right hst]
      rw [hfields]
      have hreading {payload : Payload} (hp : f.reading.payload = payload) : f.reading = ⟨st, payload⟩ := by
        rw [← hp]
      refine ⟨?_, ?_, fun x hp => ?_⟩
      · intro d v hp head
        rw [hreading hp, processedFields_head]
        simp only [Payload.rawFields, List.append_assoc]
        refine congrArg (start ++ ·) ?_
        simp only [hvalue]
        rfl
      · intro zL zR w phi hp
        rw [hreading hp, processedFields_inertial]
        simp only [Payload.rawFields, List.append_assoc]
        refine congrArg (start ++ ·) ?_
        simp only [hvalue]
        rfl
      · rw [hreading hp, processedFields_aux]
        exact List.append_assoc _ _ _
  case clear =>
    intro hd
    have hexec : exec (.clearLaneFlags p) s = .next (if 16 ≤ n.toNat
        then s.replied p ⟨20, tag, [n]⟩ rest .invalidField [natField 2 0]
        else
          let named := laneMaskOf n.toNat
          let ls := s.lanes.lane
          State.replied { s with lanes := { s.lanes with
              lane := ⟨ls.sl0.clearSticky p named.sl0, ls.sl1.clearSticky p named.sl1,
                ls.sl2.clearSticky p named.sl2, ls.sl3.clearSticky p named.sl3⟩ } }
            p ⟨20, tag, [n]⟩ rest .ok []) := by
      change execClearLaneFlags p s = _
      unfold execClearLaneFlags
      rw [State.serve_of_length (code := 20) (n := 1) hd rfl rfl, Request.field_first]
      refine congrArg Host.Outcome.next (if_congr Iff.rfl (State.refuseField_of_front hd.2.2 _) ?_)
      exact State.answerOk_of_front (by exact hd.2.2) _
    refine ⟨fun hn => ?_, fun hn => ⟨_, hexec.trans (congrArg Host.Outcome.next (if_neg (by omega))), fun l => ?_⟩⟩
    · rw [hexec, if_pos (by omega)]
    · cases l <;> exact LaneReceiver.clearSticky_eq _ _ _

end Sys2Proof.Machine
end

section
/-! PROOFS. What the closing and the release of sets leave of the sets and of the recent sets (03, 04), and the
two commands that close sets: LANE_FRAME and SAMPLE_STROBE. -/

namespace Sys2Proof.Machine

theorem SampleSet.isOpen_eq (x : SampleSet) : x.isOpen = decide (x.condition = .opened) := by
  unfold SampleSet.isOpen
  cases x.condition <;> rfl

/-! ## The sets through releases and closings (R62 to R66) -/

/-- The sets of `t` come from those of `s` in closings and releases: none is opened by them, a recent set
stays in the list, and a set whose strobe the distance base has not taken is still there. -/
structure State.setsFrom (s t : State) : Prop where
  came : ∀ y ∈ t.lanes.sets, ∃ x ∈ s.lanes.sets, x.strobe = y.strobe
    ∧ (y.condition = .opened → x.condition = .opened)
  recent : ∀ e ∈ s.lanes.recent, e ∈ t.lanes.recent
  inbox : t.base.inbox = s.base.inbox
  waits : ∀ x ∈ s.lanes.sets, s.base.hasTaken x.strobe = false →
    ∃ y ∈ t.lanes.sets, y.strobe = x.strobe ∧ y.items = x.items

theorem State.setsFrom.refl (s : State) : s.setsFrom s :=
  ⟨fun y hy => ⟨y, hy, rfl, id⟩, fun _ he => he, rfl, fun x hx _ => ⟨x, hx, rfl, rfl⟩⟩

theorem DistanceBase.hasTaken_congr {b b' : DistanceBase} (h : b'.inbox = b.inbox) (k : Word32) :
    b'.hasTaken k = b.hasTaken k := by
  unfold DistanceBase.hasTaken
  rw [h]

theorem State.setsFrom.trans {s t u : State} (h : s.setsFrom t) (k : t.setsFrom u) : s.setsFrom u where
  came y hy := by
    obtain ⟨z, hz, hzy, hzo⟩ := k.came y hy
    obtain ⟨x, hx, hxz, hxo⟩ := h.came z hz
    exact ⟨x, hx, hxz.trans hzy, hxo ∘ hzo⟩
  recent e he := k.recent e (h.recent e he)
  inbox := k.inbox.trans h.inbox
  waits x hx hnot := by
    obtain ⟨y, hy, hyx, hyi⟩ := h.waits x hx hnot
    have hnot' : t.base.hasTaken y.strobe = false := by
      rw [hyx, DistanceBase.hasTaken_congr h.inbox, hnot]
    obtain ⟨z, hz, hzy, hzi⟩ := k.waits y hy hnot'
    exact ⟨z, hz, hzy.trans hyx, hzi.trans hyi⟩

/-- No set of a strobe is OPEN where none was. -/
theorem State.setsFrom.notOpened {s t : State} (h : s.setsFrom t) {k : Word32}
    (hs : ∀ x ∈ s.lanes.sets, x.strobe = k → x.condition ≠ .opened) :
    ∀ y ∈ t.lanes.sets, y.strobe = k → y.condition ≠ .opened := by
  intro y hy hk ho
  obtain ⟨x, hx, hxy, hxo⟩ := h.came y hy
  exact hs x hx (hxy.trans hk) (hxo ho)

/-- A change of the sets one by one that opens none and keeps strobes and items is such a step. -/
theorem State.setsFrom.ofMap {s t : State} (f : SampleSet → SampleSet) (hsets : t.lanes.sets = s.lanes.sets.map f)
    (hf : ∀ x, (f x).strobe = x.strobe ∧ (f x).items = x.items ∧ ((f x).condition = .opened → x.condition = .opened))
    (hrecent : ∀ e ∈ s.lanes.recent, e ∈ t.lanes.recent) (hbase : t.base = s.base) : s.setsFrom t where
  came y hy := by
    rw [hsets, List.mem_map] at hy
    obtain ⟨x, hx, rfl⟩ := hy
    exact ⟨x, hx, (hf x).1.symm, (hf x).2.2⟩
  recent := hrecent
  inbox := congrArg DistanceBase.inbox hbase
  waits x hx _ := ⟨f x, hsets ▸ List.mem_map_of_mem hx, (hf x).1, (hf x).2.1⟩

/-- What a chain of releases leaves of the sets: those behind the ones released, each of which was ready (R65,
R66). -/
theorem State.releaseChain_sets (xs : List SampleSet) (s : State) (h : s.lanes.sets = xs) :
    ∃ gone, xs = gone ++ (s.releaseChain xs).lanes.sets
      ∧ ∀ x ∈ gone, x.condition = .closed ∧ s.base.hasTaken x.strobe = true := by
  induction xs generalizing s with
  | nil => exact ⟨[], h.symm, by simp⟩
  | cons x rest ih =>
    unfold State.releaseChain
    split
    · next hready =>
      have hrest : (s.releaseSet x).lanes.sets = rest := by
        rw [State.releaseSet_eq]
        exact congrArg List.tail h
      obtain ⟨gone, hsplit, hgone⟩ := ih (s.releaseSet x) hrest
      have hinbox : (s.releaseSet x).base.inbox = s.base.inbox := by
        rw [State.releaseSet_eq]
        rfl
      refine ⟨x :: gone, congrArg (x :: ·) hsplit, ?_⟩
      intro y hy
      rcases List.mem_cons.mp hy with rfl | hy
      · unfold State.releasable at hready
        simp only [Bool.and_eq_true, beq_iff_eq] at hready
        obtain ⟨⟨⟨hclosed, -⟩, -⟩, htaken⟩ := hready
        exact ⟨hclosed, htaken⟩
      · obtain ⟨hclosed, htaken⟩ := hgone y hy
        rw [DistanceBase.hasTaken_congr hinbox] at htaken
        exact ⟨hclosed, htaken⟩
    · exact ⟨[], h.symm, by simp⟩

theorem State.releaseReady_sets (s : State) : ∃ gone, s.lanes.sets = gone ++ s.releaseReady.lanes.sets
    ∧ ∀ x ∈ gone, x.condition = .closed ∧ s.base.hasTaken x.strobe = true :=
  State.releaseChain_sets s.lanes.sets s rfl

theorem State.releaseChain_recent (xs : List SampleSet) (s : State) :
    (s.releaseChain xs).lanes.recent = s.lanes.recent := by
  induction xs generalizing s with
  | nil => rfl
  | cons x rest ih =>
    unfold State.releaseChain
    split
    · rw [ih, State.releaseSet_eq]
      rfl
    · rfl

theorem State.setsFrom.ofReady (s : State) : s.setsFrom s.releaseReady := by
  obtain ⟨gone, hsplit, hgone⟩ := s.releaseReady_sets
  refine ⟨fun y hy => ⟨y, ?_, rfl, id⟩, fun e he => ?_, ?_, fun x hx hnot => ⟨x, ?_, rfl, rfl⟩⟩
  · rw [hsplit]
    exact List.mem_append_right _ hy
  · rwa [State.releaseReady, State.releaseChain_recent]
  · rw [(State.SetFrame.ofReady s).base]
  · rw [hsplit, List.mem_append] at hx
    refine hx.resolve_left fun hx => ?_
    rw [(hgone x hx).2] at hnot
    cases hnot

theorem State.setsFrom.ofFormed (s : State) (k : Word32) : s.setsFrom (s.closeFormed k) := by
  unfold State.closeFormed
  split
  · exact .refl s
  · refine State.setsFrom.trans ?_ (State.setsFrom.ofReady _)
    refine State.setsFrom.ofMap (fun y => if y.strobe = k then y.formed s.store.installedCal else y) rfl
      (fun x => ?_) (fun e he => List.mem_append_left _ he) rfl
    split
    · exact ⟨rfl, rfl, nofun⟩
    · exact ⟨rfl, rfl, id⟩

theorem State.setsFrom.ofFormedAll (ks : List Word32) (s : State) : s.setsFrom (s.closeFormedAll ks) := by
  induction ks generalizing s with
  | nil => exact .refl s
  | cons k ks ih =>
    unfold State.closeFormedAll
    split
    · exact (State.setsFrom.ofFormed s k).trans (ih _)
    · exact ih s

theorem State.setsFrom.ofInstall (s : State) (c : CalibrationImage) : s.setsFrom (s.installCalibration c) := by
  unfold State.installCalibration
  rw [offerAll_eq]
  refine State.setsFrom.ofMap _ rfl (fun x => ?_) (fun e he => he) rfl
  unfold SampleSet.dropLanes
  cases h : x.condition <;> simp [h]

theorem State.notOpen_setsFrom (s : State) (k : Word32) : s.setsFrom (s.notOpen k) := by
  refine State.setsFrom.ofMap _ rfl (fun x => ?_) (fun e he => he) rfl
  split
  · exact ⟨rfl, rfl, nofun⟩
  · exact ⟨rfl, rfl, id⟩

/-- The closing of a set, by whether a CALIBRATION image is staged (R51, R64). -/
theorem State.closeSet_eq (s : State) (k : Word32) : s.closeSet k =
    if s.store.stagedCal = true then
      let s2 := (s.notOpen k).installCalibration s.store.committed.calibration
      (s2.closeFormed k).closeFormedAll (completeStrobes s2.lanes.sets)
    else (s.notOpen k).closeFormed k := rfl

/-- A closing goes from the set no longer open through what keeps the sets. -/
theorem State.notOpen_closeSet (s : State) (k : Word32) : (s.notOpen k).setsFrom (s.closeSet k) := by
  rw [State.closeSet_eq]
  split
  · exact ((State.setsFrom.ofInstall _ _).trans (State.setsFrom.ofFormed _ _)).trans (State.setsFrom.ofFormedAll _ _)
  · exact State.setsFrom.ofFormed _ _

theorem State.setsFrom.ofClose (s : State) (k : Word32) : s.setsFrom (s.closeSet k) :=
  (s.notOpen_setsFrom k).trans (s.notOpen_closeSet k)

/-- After its closing no set of the strobe is OPEN (R64). -/
theorem State.closeSet_notOpened (s : State) (k : Word32) :
    ∀ x ∈ (s.closeSet k).lanes.sets, x.strobe = k → x.condition ≠ .opened := by
  refine (s.notOpen_closeSet k).notOpened fun x hx hk => ?_
  obtain ⟨y, -, rfl⟩ := List.mem_map.mp hx
  split
  · exact nofun
  · next h =>
    rw [if_neg h] at hk
    exact absurd hk h

theorem State.setsFrom.ofCloses (ks : List Word32) (s : State) : s.setsFrom (s.closeSets ks) := by
  induction ks generalizing s with
  | nil => exact .refl s
  | cons k ks ih =>
    unfold State.closeSets
    split
    · exact (State.setsFrom.ofClose s k).trans (ih _)
    · exact ih s

/-- After the closings no set of their strobes is OPEN (R63, R64). -/
theorem State.closeSets_notOpened (ks : List Word32) (s : State) :
    ∀ k ∈ ks, ∀ x ∈ (s.closeSets ks).lanes.sets, x.strobe = k → x.condition ≠ .opened := by
  induction ks generalizing s with
  | nil => simp
  | cons k ks ih =>
    intro k' hk'
    unfold State.closeSets
    rcases List.mem_cons.mp hk' with rfl | hk'
    · refine (State.setsFrom.ofCloses ks _).notOpened ?_
      split
      · exact s.closeSet_notOpened _
      · next hnone =>
        intro x hx hk ho
        exact hnone ((any_isOpen s _).mpr ⟨x, hx, hk, ho⟩)
    · exact ih _ k' hk'

/-- A closing takes a staged CALIBRATION image up (R51). -/
theorem State.closeSet_store (s : State) (k : Word32) : (s.closeSet k).store =
    if s.store.stagedCal = true
      then { s.store with installedCal := s.store.committed.calibration, stagedCal := false } else s.store := by
  rw [State.closeSet_eq]
  split
  · dsimp only
    rw [closeFormedAll_store, closeFormed_store]
    simp [State.installCalibration, State.notOpen]
  · rw [closeFormed_store]
    rfl

/-- The forming of a set of a strobe enters it among the recent sets (R46). -/
theorem State.closeFormed_recent (s : State) (k : Word32) {x : SampleSet}
    (hx : s.lanes.sets.find? (fun z => z.strobe == k) = some x) :
    x.recentEntry s.strobe.number ∈ (s.closeFormed k).lanes.recent := by
  unfold State.closeFormed
  rw [hx]
  exact (State.setsFrom.ofReady _).recent _ (List.mem_append_right _ (List.mem_singleton_self _))

/-! ## Closings with no CALIBRATION image staged (R62 to R66) -/

/-- With no CALIBRATION image staged, closings of the sets of the strobes `ks` keep the store, the lanes that
are OFF, the awaited lanes, and every OPEN set of another strobe as it is. -/
structure State.setsKept (ks : List Word32) (s t : State) : Prop where
  store : t.store = s.store
  inbox : t.base.inbox = s.base.inbox
  off : ∀ l, (t.lanes.lane.get l).state = .off ↔ (s.lanes.lane.get l).state = .off
  waits : ∀ x ∈ s.lanes.sets, s.base.hasTaken x.strobe = false →
    ∃ y ∈ t.lanes.sets, y.strobe = x.strobe ∧ y.items = x.items ∧ y.slots = x.slots ∧ y.awaited = x.awaited
  others : ∀ x ∈ s.lanes.sets, x.condition = .opened → x.strobe ∉ ks → x ∈ t.lanes.sets

section
variable {ks : List Word32} {s t u : State}

theorem State.setsKept.refl (ks : List Word32) (s : State) : s.setsKept ks s :=
  ⟨rfl, rfl, fun _ => Iff.rfl, fun x hx _ => ⟨x, hx, rfl, rfl, rfl, rfl⟩, fun _ hx _ _ => hx⟩

theorem State.setsKept.trans (h : s.setsKept ks t) (k : t.setsKept ks u) : s.setsKept ks u where
  store := k.store.trans h.store
  inbox := k.inbox.trans h.inbox
  off l := (k.off l).trans (h.off l)
  waits x hx hnot := by
    obtain ⟨y, hy, hyx, hyi, hys, hya⟩ := h.waits x hx hnot
    have hnot' : t.base.hasTaken y.strobe = false := by
      rw [hyx, DistanceBase.hasTaken_congr h.inbox, hnot]
    obtain ⟨z, hz, hzy, hzi, hzs, hza⟩ := k.waits y hy hnot'
    exact ⟨z, hz, hzy.trans hyx, hzi.trans hyi, hzs.trans hys, hza.trans hya⟩
  others x hx ho hk := k.others x (h.others x hx ho hk) ho hk

theorem State.setsKept.mono {ks' : List Word32} (h : s.setsKept ks t) (hks : ∀ k ∈ ks, k ∈ ks') :
    s.setsKept ks' t where
  store := h.store
  inbox := h.inbox
  off := h.off
  waits := h.waits
  others x hx ho hk := h.others x hx ho fun hmem => hk (hks _ hmem)

/-- A change of the sets of a strobe alone, that keeps what they hold and await. -/
theorem State.setsKept.ofUpdate {k : Word32} {f : SampleSet → SampleSet} {recent : List RecentSet}
    (hf : ∀ x, (f x).strobe = x.strobe ∧ (f x).items = x.items ∧ (f x).slots = x.slots ∧ (f x).awaited = x.awaited) :
    s.setsKept [k] { s with lanes := { s.lanes with sets := updateSet k f s.lanes.sets, recent := recent } } where
  store := rfl
  inbox := rfl
  off _ := Iff.rfl
  waits x hx _ := by
    refine ⟨_, List.mem_map_of_mem hx, ?_⟩
    split
    · exact hf x
    · exact ⟨rfl, rfl, rfl, rfl⟩
  others x hx _ hk := by
    refine List.mem_map.mpr ⟨x, hx, if_neg ?_⟩
    simpa using hk

theorem LaneReceiver.score_off_iff (r : LaneReceiver) (hit : Bool) : (r.score hit).state = .off ↔ r.state = .off := by
  cases h : r.state with
  | off => simp [LaneReceiver.score, h]
  | locked =>
    simp only [LaneReceiver.score, h]
    split_ifs <;> simp
  | seeking | lost =>
    simp only [LaneReceiver.score, h]
    split_ifs <;> simp

theorem State.releaseChain_off (xs : List SampleSet) (s : State) (l : Lane) :
    ((s.releaseChain xs).lanes.lane.get l).state = .off ↔ (s.lanes.lane.get l).state = .off := by
  induction xs generalizing s with
  | nil => exact Iff.rfl
  | cons x rest ih =>
    unfold State.releaseChain
    split
    · rw [ih, State.releaseSet_eq]
      refine Iff.trans ?_ (LaneReceiver.score_off_iff _ (x.slots.get l).isSome)
      rw [← scoreLanes_get]
      rfl
    · exact Iff.rfl

theorem State.setsKept.ofReady (ks : List Word32) (s : State) : s.setsKept ks s.releaseReady := by
  obtain ⟨gone, hsplit, hgone⟩ := s.releaseReady_sets
  refine ⟨releaseChain_store _ _, by rw [(State.SetFrame.ofReady s).base], fun l => s.releaseChain_off _ l,
    fun x hx hnot => ⟨x, ?_, rfl, rfl, rfl, rfl⟩, fun x hx ho _ => ?_⟩
  · rw [hsplit, List.mem_append] at hx
    refine hx.resolve_left fun hx => ?_
    rw [(hgone x hx).2] at hnot
    cases hnot
  · rw [hsplit, List.mem_append] at hx
    refine hx.resolve_left fun hx => ?_
    rw [(hgone x hx).1] at ho
    cases ho

theorem State.setsKept.ofFormed (s : State) (k : Word32) : s.setsKept [k] (s.closeFormed k) := by
  unfold State.closeFormed
  split
  · exact .refl _ s
  · refine State.setsKept.trans ?_ (State.setsKept.ofReady _ _)
    exact State.setsKept.ofUpdate fun x => ⟨rfl, rfl, rfl, rfl⟩

theorem State.setsKept.ofClose (h : s.store.stagedCal = false) (k : Word32) : s.setsKept [k] (s.closeSet k) := by
  rw [State.closeSet_eq, if_neg (by rw [h]; nofun)]
  refine State.setsKept.trans ?_ (State.setsKept.ofFormed _ _)
  exact State.setsKept.ofUpdate (recent := s.lanes.recent) fun x => ⟨rfl, rfl, rfl, rfl⟩

theorem State.setsKept.ofCloses (h : s.store.stagedCal = false) (ks : List Word32) :
    s.setsKept ks (s.closeSets ks) := by
  induction ks generalizing s with
  | nil => exact .refl _ s
  | cons k ks ih =>
    unfold State.closeSets
    split
    · have hk := State.setsKept.ofClose h k
      refine (hk.mono (by simp)).trans ((ih (hk.store ▸ h)).mono fun _ => List.mem_cons_of_mem _)
    · exact (ih h).mono fun _ => List.mem_cons_of_mem _

end

end Sys2Proof.Machine
end

section
/-! PROOFS. LANE_FRAME and SAMPLE_STROBE (3.1 to 3.5, 4.1 to 4.3). -/

namespace Sys2Proof.Machine

/-! ## LANE_FRAME (R44 to R47, R52) -/

theorem setWidth_beq_iff (k : Word32) (q : Byte) : (k.setWidth 8 == q) = true ↔ k.toNat % 256 = q.toNat := by
  rw [beq_iff_eq, ← BitVec.toNat_inj, BitVec.toNat_setWidth]

/-- What a search among the OPEN sets for a frame's sequence answers (R46). -/
theorem LaneUnit.findOpen (u : LaneUnit) (q : Byte) :
    (∃ x, (x ∈ u.sets ∧ x.condition = .opened ∧ x.strobe.toNat % 256 = q.toNat)
      ∧ u.sets.find? (fun x => x.isOpen && x.strobe.setWidth 8 == q) = some x)
    ∨ ((¬ ∃ x, x ∈ u.sets ∧ x.condition = .opened ∧ x.strobe.toNat % 256 = q.toNat)
      ∧ u.sets.find? (fun x => x.isOpen && x.strobe.setWidth 8 == q) = none) := by
  have htest (x : SampleSet) : (x.isOpen && x.strobe.setWidth 8 == q) = true ↔
      x.condition = .opened ∧ x.strobe.toNat % 256 = q.toNat := by
    rw [Bool.and_eq_true, setWidth_beq_iff, SampleSet.isOpen_eq, decide_eq_true_iff]
  cases hfind : u.sets.find? (fun x => x.isOpen && x.strobe.setWidth 8 == q) with
  | some x =>
    have hx := List.find?_some (p := fun x : SampleSet => x.isOpen && x.strobe.setWidth 8 == q) hfind
    exact .inl ⟨x, ⟨List.mem_of_find?_eq_some hfind, (htest x).mp hx⟩, rfl⟩
  | none =>
    refine .inr ⟨?_, rfl⟩
    rintro ⟨x, hx, ho⟩
    exact List.find?_eq_none.mp hfind x hx ((htest x).mpr ho)

/-- What a search among the recent sets for a frame's sequence answers (R46). -/
theorem LaneUnit.findRecent (u : LaneUnit) (q : Byte) :
    (∃ e, (e ∈ u.recent ∧ e.strobe.toNat % 256 = q.toNat)
      ∧ u.recent.find? (fun e => e.strobe.setWidth 8 == q) = some e)
    ∨ ((¬ ∃ e, e ∈ u.recent ∧ e.strobe.toNat % 256 = q.toNat)
      ∧ u.recent.find? (fun e => e.strobe.setWidth 8 == q) = none) := by
  cases hfind : u.recent.find? (fun e => e.strobe.setWidth 8 == q) with
  | some e =>
    have he := List.find?_some (p := fun e : RecentSet => e.strobe.setWidth 8 == q) hfind
    exact .inl ⟨e, ⟨List.mem_of_find?_eq_some hfind, (setWidth_beq_iff _ _).mp he⟩, rfl⟩
  | none =>
    refine .inr ⟨?_, rfl⟩
    rintro ⟨e, he, hq⟩
    exact List.find?_eq_none.mp hfind e he ((setWidth_beq_iff _ _).mpr hq)

/-- A set is complete once a slot is filled when every other lane it awaits has filled its own (R62). -/
theorem SampleSet.complete_fill (x : SampleSet) (l : Lane) (reading : Reading) :
    SampleSet.complete { x with slots := x.slots.set l (some reading) } = true ↔
      ∀ m, x.awaited.get m = true → m = l ∨ (x.slots.get m).isSome = true := by
  have hall (f : Lane → Prop) : (∀ m, f m) ↔ f .sl0 ∧ f .sl1 ∧ f .sl2 ∧ f .sl3 :=
    ⟨fun h => ⟨h _, h _, h _, h _⟩, fun ⟨h0, h1, h2, h3⟩ m => by cases m <;> assumption⟩
  rw [hall]
  cases l <;> simp [SampleSet.complete, SampleSet.filled, PerLane.subset, PerLane.map, PerLane.set, PerLane.get,
    or_iff_not_imp_left, and_assoc]

/-- The lane unit with a slot of the set of strobe `k` filled by a frame (R46). -/
def LaneUnit.filled (u : LaneUnit) (l : Lane) (k : Word32) (q : Byte) (reading : Reading) : LaneUnit :=
  { u with
    lane := u.lane.set l { u.lane.get l with
      accepted := (u.lane.get l).accepted + 1, live := false, last := some ⟨k, q, reading⟩ }
    sets := u.sets.map (fun x => if x.strobe = k then { x with slots := x.slots.set l (some reading) } else x) }

theorem State.fillSlot_eq (s : State) (l : Lane) (k : Word32) (q : Byte) (reading : Reading) :
    s.fillSlot l k q reading =
      let s2 : State := { s with lanes := s.lanes.filled l k q reading }
      if s2.lanes.sets.any (fun x => x.strobe == k && x.isOpen && x.complete) then s2.closeSet k else s2 := rfl

theorem LaneUnit.any_complete_iff (u : LaneUnit) (l : Lane) (k : Word32) (q : Byte) (reading : Reading) :
    (u.filled l k q reading).sets.any (fun x => x.strobe == k && x.isOpen && x.complete) = true ↔
      ∃ x ∈ u.sets, x.condition = .opened ∧ x.strobe = k
        ∧ ∀ m, x.awaited.get m = true → m = l ∨ (x.slots.get m).isSome = true := by
  simp only [LaneUnit.filled, List.any_map, List.any_eq_true, Function.comp, Bool.and_eq_true, beq_iff_eq]
  refine exists_congr fun x => and_congr_right fun _ => ?_
  by_cases hk : x.strobe = k
  · rw [if_pos hk, SampleSet.complete_fill, SampleSet.isOpen_eq, decide_eq_true_iff]
    exact ⟨fun ⟨⟨h1, h2⟩, h3⟩ => ⟨h2, h1, h3⟩, fun ⟨h1, h2, h3⟩ => ⟨⟨h2, h1⟩, h3⟩⟩
  · rw [if_neg hk]
    exact ⟨fun h => absurd h.1.1 hk, fun h => absurd h.2.1 hk⟩

theorem State.installCalibration_sets (s : State) (c : CalibrationImage) :
    ∃ before after, (s.installCalibration c).lanes.sets = s.lanes.sets.map (fun x => x.dropLanes before after) := by
  unfold State.installCalibration
  rw [offerAll_eq]
  exact ⟨_, _, rfl⟩

theorem SampleSet.dropLanes_eq (x : SampleSet) (before after : PerLane LaneReceiver) :
    (x.dropLanes before after).strobe = x.strobe ∧ (x.dropLanes before after).slots = x.slots := by
  unfold SampleSet.dropLanes
  cases x.condition <;> exact ⟨rfl, rfl⟩

/-- The closing of a set of which every lane's slots are known to be filled enters them in the recent set. -/
theorem State.closeSet_recent (s : State) (l : Lane) (k : Word32) (h : ∃ x ∈ s.lanes.sets, x.strobe = k)
    (hl : ∀ x ∈ s.lanes.sets, x.strobe = k → (x.slots.get l).isSome = true) :
    ∃ e ∈ (s.closeSet k).lanes.recent, e.strobe = k ∧ e.closedAt = s.strobe.number ∧ e.holds.get l = true := by
  have hformed (u : State) (f : SampleSet → SampleSet) (hu : u.lanes.sets = s.lanes.sets.map f)
      (hf : ∀ x, (f x).strobe = x.strobe ∧ (f x).slots = x.slots) (hstrobe : u.strobe = s.strobe) :
      ∃ e ∈ (u.closeFormed k).lanes.recent, e.strobe = k ∧ e.closedAt = s.strobe.number ∧ e.holds.get l = true := by
    obtain ⟨x, hx, hk⟩ := h
    have hsome : (u.lanes.sets.find? (fun z => z.strobe == k)).isSome = true := by
      rw [List.find?_isSome]
      refine ⟨f x, hu ▸ List.mem_map_of_mem hx, ?_⟩
      rw [(hf x).1, hk]
      exact beq_self_eq_true k
    obtain ⟨y, hy⟩ := Option.isSome_iff_exists.mp hsome
    have hyk : y.strobe = k := by simpa using List.find?_some hy
    have hymem := List.mem_of_find?_eq_some hy
    rw [hu, List.mem_map] at hymem
    obtain ⟨z, hz, rfl⟩ := hymem
    refine ⟨_, u.closeFormed_recent k hy, hyk, congrArg StrobeGenerator.number hstrobe, ?_⟩
    have hfilled : ((f z).filled.get l) = ((f z).slots.get l).isSome := by cases l <;> rfl
    refine hfilled.trans ?_
    rw [(hf z).2]
    exact hl z hz ((hf z).1.symm.trans hyk)
  rw [State.closeSet_eq]
  split
  · dsimp only
    obtain ⟨before, after, hsets⟩ := (s.notOpen k).installCalibration_sets s.store.committed.calibration
    have hkept (x : SampleSet) : let y := if x.strobe = k then { x with condition := .closed } else x
        (y.dropLanes before after).strobe = x.strobe ∧ (y.dropLanes before after).slots = x.slots := by
      intro y
      rw [(y.dropLanes_eq before after).1, (y.dropLanes_eq before after).2]
      by_cases hk : x.strobe = k <;> simp [y, hk]
    obtain ⟨e, he, hek⟩ := hformed ((s.notOpen k).installCalibration s.store.committed.calibration) _
      (hsets.trans List.map_map) hkept (State.SetFrame.ofInstall (s.notOpen k) _).strobe
    exact ⟨e, (State.setsFrom.ofFormedAll _ _).recent e he, hek⟩
  · exact hformed (s.notOpen k) _ rfl (fun x => by split <;> exact ⟨rfl, rfl⟩) rfl

/-- Settles O13: the frame is ignored, fails, is late, or fills its slot, and the set then closes or not. -/
theorem laneFrameOutcomes : Obligations.LaneFrameOutcomes := by
  unfold Obligations.LaneFrameOutcomes
  intro s l bytes r withLane lateLanes failed
  have hexec : exec (.laneFrame l bytes) s = execLaneFrame l bytes s := rfl
  have hactive (hoff : r.state ≠ .off) : exec (.laneFrame l bytes) s = match checkLaneFrame l bytes with
      | .badCrc | .wrongKind => .next failed
      | .wellFormed q reading => .next (s.takeFrame l q reading) := by
    rw [hexec]
    unfold execLaneFrame
    exact if_neg hoff
  have hoff (h : r.state = .off) : exec (.laneFrame l bytes) s = .next s := by
    rw [hexec]
    unfold execLaneFrame
    exact if_pos h
  refine ⟨?_, hoff, fun h => ⟨?_, ?_⟩⟩
  · by_cases h : r.state = .off
    · exact ⟨s, hoff h⟩
    · rw [hactive h]
      cases checkLaneFrame l bytes <;> exact ⟨_, rfl⟩
  · rintro (hbad | hbad) <;> rw [hactive h, hbad]
  intro q reading hwell isOpen isRecent
  have hframe : exec (.laneFrame l bytes) s = .next (match s.lanes.matchFrame l q with
      | .fills k => s.fillSlot l k q reading
      | .late => { s with lanes := { lateLanes with latePending := true } }
      | .failure => failed) := by
    rw [hactive h, hwell]
    rfl
  have hopened : (∃ x, isOpen x ∧ s.lanes.matchFrame l q
        = if (x.slots.get l).isSome then .failure else .fills x.strobe)
      ∨ ((¬ ∃ x, isOpen x) ∧ s.lanes.matchFrame l q = match s.lanes.recent.find? (fun e => e.strobe.setWidth 8 == q) with
        | some e => if e.holds.get l then .failure else .late
        | none => .failure) := by
    unfold LaneUnit.matchFrame
    rcases s.lanes.findOpen q with ⟨x, hx, hfind⟩ | ⟨hnone, hfind⟩
    · exact .inl ⟨x, hx, by rw [hfind]⟩
    · exact .inr ⟨hnone, by rw [hfind] <;> rfl⟩
  refine ⟨?duplicate, ?sequence, ?tooLate, ?filling⟩
  case duplicate =>
    intro hopen hall
    obtain ⟨x, hx, hmatch⟩ | ⟨hnone, -⟩ := hopened
    · rw [hframe, hmatch, if_pos (hall x hx)]
    · exact absurd hopen hnone
  case sequence =>
    intro hnone hall
    obtain ⟨x, hx, -⟩ | ⟨-, hmatch⟩ := hopened
    · exact absurd ⟨x, hx⟩ hnone
    · rw [hframe, hmatch]
      rcases s.lanes.findRecent q with ⟨e, he, hfind⟩ | ⟨-, hfind⟩
      · rw [hfind]
        simp only [hall e he, if_true]
      · rw [hfind]
  case tooLate =>
    intro hnone ⟨e', he'⟩ hall
    obtain ⟨x, hx, -⟩ | ⟨-, hmatch⟩ := hopened
    · exact absurd ⟨x, hx⟩ hnone
    · rw [hframe, hmatch]
      rcases s.lanes.findRecent q with ⟨e, he, hfind⟩ | ⟨hno, -⟩
      · rw [hfind]
        simp only [hall e he, Bool.false_eq_true, if_false]
      · exact absurd ⟨e', he'⟩ hno
  case filling =>
    intro k hopen hall
    obtain ⟨x, hx, hmatch⟩ | ⟨hnone, -⟩ := hopened
    · obtain ⟨hxk, hslot⟩ := hall x hx
      rw [hslot, hxk] at hmatch
      intro sets lanes leavesNone
      have hfill : exec (.laneFrame l bytes) s = .next (s.fillSlot l k q reading) := by
        rw [hframe, hmatch]
        rfl
      rw [State.fillSlot_eq] at hfill
      set s2 : State := { s with lanes := s.lanes.filled l k q reading } with hs2
      have hcomplete := s.lanes.any_complete_iff l k q reading
      refine ⟨fun hno => ?_, fun ⟨y, hy, hleaves⟩ => ⟨s2.closeSet k, ?_, s2.closeSet_notOpened k, ?_, fun hst => ?_, ?_, ?_⟩⟩
      · refine hfill.trans (congrArg Host.Outcome.next (if_neg fun hc => ?_))
        obtain ⟨y, hy, ho, hk, hleaves⟩ := hcomplete.mp hc
        exact hno y hy ho hk hleaves
      · refine hfill.trans (congrArg Host.Outcome.next (if_pos ?_))
        exact hcomplete.mpr ⟨y, hy.1, hy.2.1, (hall y hy).1, hleaves⟩
      · refine s2.closeSet_recent l k ?_ ?_
        · exact ⟨_, List.mem_map_of_mem hx.1, by rw [if_pos hxk]; exact hxk⟩
        · intro z hz hk
          obtain ⟨z', -, rfl⟩ := List.mem_map.mp hz
          split
          · cases l <;> rfl
          · next hne =>
            rw [if_neg hne] at hk
            exact absurd hk hne
      · have hst2 : s2.store.stagedCal = true := hst
        rw [s2.closeSet_store, if_pos hst2]
        exact ⟨rfl, rfl⟩
      · refine closeSet_closes s2 k ⟨_, List.mem_map_of_mem hx.1, ?_⟩
        rw [if_pos hxk]
        exact hxk
      · have hf := State.SetFrame.ofClose s2 k
        exact ⟨hf.tach, hf.strobe, hf.exc, hf.marking, hf.run, hf.ring, hf.pending, hf.base, hf.geo⟩
    · exact absurd hopen hnone

end Sys2Proof.Machine
end

section
/-! PROOFS. SAMPLE_STROBE (3.1, 3.2, 4.1 to 4.3). -/

namespace Sys2Proof.Machine

/-! ## The taking of a strobe by the lane receivers (R61, R63) -/

/-- The sets closed at a strobe's deadlines, as the claims list them (R63). -/
theorem deadlineStrobes_eq (window : Nat) (m : Word32) (sets : List SampleSet) : deadlineStrobes window m sets =
    (sets.filter (fun x => decide (x.condition = .opened) && decide (window ≤ (m - x.strobe).toNat))).map
      SampleSet.strobe := by
  unfold deadlineStrobes
  simp only [SampleSet.isOpen_eq]

theorem openedSet_eq (lanes : PerLane LaneReceiver) (k : Word32) (items : StrobeItems) : openedSet lanes k items =
    { strobe := k, condition := .opened, items := some items, slots := ⟨none, none, none, none⟩
      awaited := ⟨decide (lanes.sl0.state ≠ .off), decide (lanes.sl1.state ≠ .off),
        decide (lanes.sl2.state ≠ .off), decide (lanes.sl3.state ≠ .off)⟩
      values := ⟨none, none, none, none, none, none, none, none, none⟩
      absent := ⟨false, false, false, false⟩, late := false } := by
  have hne (r : LaneReceiver) : (r.state != .off) = decide (r.state ≠ .off) := by
    rw [Bool.eq_iff_iff, bne_iff_ne, decide_eq_true_iff]
  unfold openedSet PerLane.map
  simp only [hne]
  rfl

theorem openedSet_awaited (lanes : PerLane LaneReceiver) (k : Word32) (items : StrobeItems) (l : Lane) :
    (openedSet lanes k items).awaited.get l = decide ((lanes.get l).state ≠ .off) := by
  rw [openedSet_eq]
  cases l <;> rfl

/-- A set is complete as it opens when it awaits no lane (R62). -/
theorem openedSet_complete_iff (lanes : PerLane LaneReceiver) (k : Word32) (items : StrobeItems) :
    (openedSet lanes k items).complete = true ↔ ∀ l, (openedSet lanes k items).awaited.get l = false := by
  have hall (f : Lane → Prop) : (∀ m, f m) ↔ f .sl0 ∧ f .sl1 ∧ f .sl2 ∧ f .sl3 :=
    ⟨fun h => ⟨h _, h _, h _, h _⟩, fun ⟨h0, h1, h2, h3⟩ m => by cases m <;> assumption⟩
  rw [hall]
  simp [openedSet, SampleSet.complete, SampleSet.filled, PerLane.subset, PerLane.map, PerLane.get, PerLane.all,
    and_assoc]

/-- `s` with the set of strobe `m` opened (R61). -/
def State.withOpened (s : State) (m : Word32) (items : StrobeItems) : State :=
  { s with lanes := { s.lanes with sets := s.lanes.sets ++ [openedSet s.lanes.lane m items] } }

/-- `s` after the opened set of strobe `m` has closed where it awaits no lane (R62). -/
def State.closedIfComplete (s : State) (m : Word32) (items : StrobeItems) : State :=
  if (openedSet s.lanes.lane m items).complete then (s.withOpened m items).closeSet m else s.withOpened m items

theorem State.lanesTakeStrobe_eq (s : State) (m : Word32) (items : StrobeItems) : s.lanesTakeStrobe m items =
    let w := (s.closeSets (deadlineStrobes s.store.installedCal.assemblyWindow m s.lanes.sets)).closedIfComplete m items
    { w with lanes := { w.lanes with
        recent := w.lanes.recent.filter (fun r => decide ((m - r.closedAt).toNat < 8)) } } := rfl

/-- The opened set is still there after what closes at once, since the distance base has not taken its strobe. -/
theorem State.closedIfComplete_holds (s : State) (m : Word32) (items : StrobeItems)
    (h : s.base.hasTaken m = false) : ∃ x ∈ (s.closedIfComplete m items).lanes.sets, x.strobe = m
      ∧ x.items = some items
      ∧ (s.store.stagedCal = false → x.slots = ⟨none, none, none, none⟩
        ∧ x.awaited = (openedSet s.lanes.lane m items).awaited) := by
  have hmem : openedSet s.lanes.lane m items ∈ (s.withOpened m items).lanes.sets :=
    List.mem_append_right _ (List.mem_singleton_self _)
  unfold State.closedIfComplete
  split
  · cases hst : s.store.stagedCal with
    | false =>
      obtain ⟨y, hy, hk, hi, hs, ha⟩ := (State.setsKept.ofClose (s := s.withOpened m items) hst m).waits _ hmem h
      exact ⟨y, hy, hk, hi, fun _ => ⟨hs, ha⟩⟩
    | true =>
      obtain ⟨y, hy, hk, hi⟩ := (State.setsFrom.ofClose (s.withOpened m items) m).waits _ hmem h
      exact ⟨y, hy, hk, hi, nofun⟩
  · exact ⟨_, hmem, rfl, rfl, fun _ => ⟨rfl, rfl⟩⟩

theorem State.closedIfComplete_setsFrom (s : State) (m : Word32) (items : StrobeItems) :
    (s.withOpened m items).setsFrom (s.closedIfComplete m items) := by
  unfold State.closedIfComplete
  split
  · exact State.setsFrom.ofClose _ m
  · exact .refl _

theorem State.closedIfComplete_setsKept (s : State) (m : Word32) (items : StrobeItems)
    (h : s.store.stagedCal = false) : (s.withOpened m items).setsKept [m] (s.closedIfComplete m items) := by
  unfold State.closedIfComplete
  split
  · exact State.setsKept.ofClose (s := s.withOpened m items) h m
  · exact .refl _ _

/-- The speed window stays within its bounds at a strobe (R16). -/
theorem TachUnit.takeStrobe_window (u : TachUnit) (o : OdometryImage) (period : Nat) (k : Word32)
    (h1 : 1 ≤ u.window.length) (h2 : u.window.length ≤ Config.windowCapacity) :
    1 ≤ (u.takeStrobe o period k).1.window.length
      ∧ (u.takeStrobe o period k).1.window.length ≤ Config.windowCapacity := by
  have hcap : 1 ≤ Config.windowCapacity := by decide
  have hwindow : (u.takeStrobe o period k).1.window
      = if u.rateChanged then [(u.takeStrobe o period k).1.net] else appendWindow u.window (u.takeStrobe o period k).1.net := rfl
  rw [hwindow]
  split
  · exact ⟨le_rfl, hcap⟩
  · unfold appendWindow
    dsimp only
    split
    · simp only [List.length_tail, List.length_append, List.length_singleton]
      omega
    · simp only [List.length_append, List.length_singleton] at *
      omega

/-- Settles O6: the strobe is issued, the sets at their deadlines close, the set opens, and the list of recent
sets is cut. -/
theorem sampleStrobeTaken : Obligations.SampleStrobeTaken := by
  unfold Obligations.SampleStrobeTaken
  intro s m r i due
  set u : State := (s.strobeIssued m (s.time + s.strobe.period)).offerAll r.2.2 with hu
  set v := u.closeSets due with hv
  set w := v.closedIfComplete m i with hw
  have hueq : u = { s.strobeIssued m (s.time + s.strobe.period) with ports := s.portsOffered r.2.2 } := by
    rw [hu, offerAll_eq]
    rfl
  have hdue : deadlineStrobes u.store.installedCal.assemblyWindow m u.lanes.sets = due := by
    rw [hueq]
    exact deadlineStrobes_eq _ _ _
  set t := s.issueStrobe m (s.time + s.strobe.period) with ht
  have hteq : t = { w with lanes := { w.lanes with
      recent := w.lanes.recent.filter (fun r => decide ((m - r.closedAt).toNat < 8)) } } := by
    have : t = u.lanesTakeStrobe m i := s.issueStrobe_eq m _
    rw [this, State.lanesTakeStrobe_eq, hdue]
  have hulanes : u.lanes = s.lanes := by rw [hueq]; rfl
  have hustore : u.store = s.store := by rw [hueq]; rfl
  have hkept (hst : s.store.stagedCal = false) : u.setsKept due v := State.setsKept.ofCloses (hustore ▸ hst) due
  have hvstore (hst : s.store.stagedCal = false) : s.store = v.store := ((hkept hst).store.trans hustore).symm
  have hframe : State.SetFrame (s.strobeIssued m (s.time + s.strobe.period)) t := State.SetFrame.ofIssue s m _
  refine ⟨t, u, v, rfl, ?_, hframe.time, ?_, ?_, hframe.tach, hframe.base, ?_, closeSets_closesEach due u, ?_, ?_, ?_,
    fun hlaw => ?_, hframe.geo, hframe.exc, hframe.marking, hframe.run, hframe.ring, hframe.committed,
    hframe.generations, hframe.pending, hframe.resetPending⟩
  · rw [hframe.strobe]
    rfl
  · rw [hframe.strobe]
    exact BitVec.toNat_setWidth _ _
  · rw [hframe.strobe]
    rfl
  · rw [hframe.time, hframe.strobe, hframe.tach, hueq]
    rfl
  · intro x opened
    have hx : x = openedSet v.lanes.lane m i := (openedSet_eq _ _ _).symm
    have hopened : opened = v.withOpened m i := by
      simp only [opened, hx]
      rfl
    have hcomplete := openedSet_complete_iff v.lanes.lane m i
    rw [← hx] at hcomplete
    have hclosed : w = if x.complete then opened.closeSet m else opened := by
      rw [hw, hopened, hx]
      rfl
    refine ⟨w, fun ⟨l, hl⟩ => ?_, fun hall => ?_, hteq⟩
    · rw [hclosed, if_neg fun hc => ?_]
      rw [hcomplete.mp hc l] at hl
      cases hl
    · rw [hclosed, if_pos (hcomplete.mpr hall)]
      exact closeSet_closes opened m ⟨x, List.mem_append_right _ (List.mem_singleton_self _), rfl⟩
  · have hinbox : v.base.inbox = s.base.inbox ++ [i] := by
      rw [(State.setsFrom.ofCloses due u).inbox, hueq]
      rfl
    have hnot : v.base.hasTaken m = false := by
      unfold DistanceBase.hasTaken
      rw [hinbox, List.all_append]
      have : i.strobe = m := rfl
      simp [this]
    obtain ⟨y, hy, hk, hitems, hquiet⟩ := v.closedIfComplete_holds m i hnot
    refine ⟨y, hteq ▸ hy, hk, hitems, fun hst l => ?_⟩
    obtain ⟨hslots, hawaited⟩ := hquiet (hvstore hst ▸ hst)
    refine ⟨?_, ?_⟩
    · rw [hslots]
      cases l <;> rfl
    · rw [hawaited, openedSet_awaited, decide_eq_decide, not_iff_not, (hkept hst).off l, hulanes]
  · intro hst hwin
    have hsets : t.lanes.sets = w.lanes.sets := by rw [hteq]
    have hclosed := v.closedIfComplete_setsKept m i (hvstore hst ▸ hst)
    refine ⟨fun x hx ho => ?_, fun x hx ho hne hlt => ?_⟩
    · rw [hsets] at hx
      obtain ⟨y, hy, hyx, hyo⟩ := (v.closedIfComplete_setsFrom m i).came x hx
      rcases List.mem_append.mp hy with hy | hy
      · obtain ⟨z, hz, hzy, hzo⟩ := (State.setsFrom.ofCloses due u).came y hy
        by_contra hle
        have hmem : z.strobe ∈ due := by
          refine List.mem_map_of_mem (List.mem_filter.mpr ⟨hulanes ▸ hz, ?_⟩)
          rw [Bool.and_eq_true, decide_eq_true_iff, decide_eq_true_iff, hzy, hyx]
          exact ⟨hzo (hyo ho), not_lt.mp hle⟩
        exact u.closeSets_notOpened due z.strobe hmem y hy hzy.symm (hyo ho)
      · rw [List.mem_singleton] at hy
        have hxm : x.strobe = m := by rw [← hyx, hy]; rfl
        rw [hxm, BitVec.sub_self]
        exact hwin
    · rw [hsets]
      have hnotdue : x.strobe ∉ due := by
        intro hmem
        obtain ⟨z, hz, hzx⟩ := List.mem_map.mp hmem
        obtain ⟨-, hz⟩ := List.mem_filter.mp hz
        rw [Bool.and_eq_true, decide_eq_true_iff, decide_eq_true_iff, hzx] at hz
        omega
      have hxv := (hkept hst).others x (hulanes ▸ hx) ho hnotdue
      exact hclosed.others x (List.mem_append_left _ hxv) ho (by simpa using hne)
  · unfold State.WindowLaw at *
    rw [hframe.tach]
    exact s.tach.takeStrobe_window s.store.committed.odometry s.strobe.period m hlaw.1 hlaw.2

end Sys2Proof.Machine
end

section
/-! PROOFS. Points and track position (02): the taking of a strobe by the distance base, one generated point,
and the ends of the pulses on the lines. -/

namespace Sys2Proof.Machine

/-! ## One generated point (R24, R30 to R32, R38) -/

/-- The correction step, by its sign under BLEND (R31). -/
theorem correctionStep_eq (o : OdometryImage) (c : Int) : correctionStep o c = match o.fixMode with
    | .step => c
    | .blend => if c < 0 then -(min (-c) o.blendRate) else min c o.blendRate := by
  unfold correctionStep
  cases o.fixMode with
  | step => rfl
  | blend =>
    dsimp only
    by_cases h : c < 0
    · rw [if_neg (by omega), if_pos h]
      omega
    · rw [if_pos (by omega), if_neg h]

theorem DsLine.free_eq_false_iff (d : DsLine) : d.free = false ↔ d = .active ∨ d = .between := by
  cases d <;> simp [DsLine.free]

/-- A point's pulses cannot begin while one of its lines is not free, or an earlier point waits for one of them
(R38, R39). -/
theorem DsOutputs.begins_eq_false_iff (o : DsOutputs) (x : DsPulses) : o.begins x = false ↔
    (x.ds0 = true ∧ (o.ds0 = .active ∨ o.ds0 = .between)) ∨ (x.ds1 = true ∧ (o.ds1 = .active ∨ o.ds1 = .between))
      ∨ ∃ y ∈ o.due, (x.ds0 = true ∧ y.ds0 = true) ∨ (x.ds1 = true ∧ y.ds1 = true) := by
  unfold DsOutputs.begins
  rw [Bool.and_eq_false_iff, Bool.and_eq_false_iff, or_assoc]
  refine or_congr ?_ (or_congr ?_ ?_)
  · rw [← DsLine.free_eq_false_iff, Bool.or_eq_false_iff, Bool.not_eq_false']
  · rw [← DsLine.free_eq_false_iff, Bool.or_eq_false_iff, Bool.not_eq_false']
  · simp only [List.all_eq_false, DsPulses.share, Bool.not_eq_true, Bool.not_eq_false', Bool.or_eq_true,
      Bool.and_eq_true]

/-- Settles O10: the correction's step, the entry, and the pulses that begin or wait. -/
theorem generatedPointEntry : Obligations.GeneratedPointEntry := by
  unfold Obligations.GeneratedPointEntry
  intro b sam o k left right j step raw b'
  have hstep : correctionStep o b.correction = step := correctionStep_eq o b.correction
  have hraw : DistanceBase.rawPosition { b with offset := b.offset + correctionStep o b.correction
                                                correction := b.correction - correctionStep o b.correction }
      sam.interval j = raw := by
    rw [hstep]
    cases ho : b.orientation <;> simp [DistanceBase.rawPosition, Orientation.sign, raw, ho]
  have hb' : b' = { b with
      offset := b.offset + step, correction := b.correction - step, last := j
      queue := b.queue ++ [{ point := j, strobe := k, target := j * intervalMicrons sam, left := left, right := right
                             position := clampPosition raw, corrected := b.correction != 0
                             limited := positionLimited raw }]
      ds := b.ds.pulse (dsPulses sam j) } := by
    rw [← hraw, ← hstep]
    rfl
  rw [hb']
  refine ⟨rfl, rfl, rfl, ⟨_, rfl, rfl, rfl, rfl, rfl, rfl, ?position, ?limited, ?corrected⟩, ?pulses⟩
  case position => exact Int.toNat_of_nonneg (le_max_left _ _)
  case limited =>
    change (decide (raw < 0) || decide (maxPosition < raw)) = true ↔ _
    rw [Bool.or_eq_true, decide_eq_true_iff, decide_eq_true_iff]
    rfl
  case corrected => simp
  case pulses =>
    intro on0 on1 busy
    have h0 : (dsPulses sam j).ds0 = true ↔ on0 := by simp [dsPulses, on0]
    have h1 : (dsPulses sam j).ds1 = true ↔ on1 := by simp [dsPulses, on1]
    have hbusy : b.ds.begins (dsPulses sam j) = false ↔ busy := by
      rw [DsOutputs.begins_eq_false_iff]
      simp only [h0, h1, busy]
    refine ⟨fun hfree => ?_, fun hb => ?_⟩
    · have hbegins : b.ds.begins (dsPulses sam j) = true := by
        rw [← Bool.not_eq_false, hbusy]
        exact hfree
      refine (if_pos hbegins).trans ?_
      rw [if_congr h0 rfl rfl, if_congr h1 rfl rfl]
    · refine (if_neg (by rw [hbusy.mpr hb]; nofun)).trans ?_
      have hpulses : dsPulses sam j = ⟨decide on0, decide on1⟩ := by
        have hbeq (n : Nat) : (n == 0) = decide (n = 0) := by rw [Bool.eq_iff_iff, beq_iff_eq, decide_eq_true_iff]
        rw [dsPulses, hbeq, hbeq]
      rw [hpulses]

/-! ## The points of a strobe (R23, R26) -/

/-- What the generation of points one after another leaves of the distance base (R23, R31). -/
theorem generate_foldl (sam : SamplingImage) (o : OdometryImage) (k : Word32) (left right : Int) (js : List Nat)
    (b : DistanceBase) :
    let b' := js.foldl (fun b j => b.generate sam o k left right j) b
    b'.offset + b'.correction = b.offset + b.correction ∧ b'.last = js.getLastD b.last
      ∧ b'.high = b.high ∧ b'.inbox = b.inbox ∧ b'.net = b.net ∧ b'.running = b.running ∧ b'.n0 = b.n0
      ∧ b'.out = b.out := by
  induction js generalizing b with
  | nil => exact ⟨rfl, rfl, rfl, rfl, rfl, rfl, rfl, rfl⟩
  | cons j js ih =>
    obtain ⟨hsum, hlast, hrest⟩ := ih (b.generate sam o k left right j)
    refine ⟨hsum.trans ?_, hlast.trans ?_, hrest⟩
    · unfold DistanceBase.generate
      dsimp only
      omega
    · cases js <;> rfl

/-- The grant reads what the writers hand over, and the ring. -/
theorem State.grant_ring_congr {s t : State} (h : t.sameOuts s) (hr : t.ring = s.ring) : t.grant.ring = s.grant.ring := by
  have hw (w : Writer) : t.waiting w = s.waiting w := h.waiting w
  have hfirst (n : Nat) (w : Writer) : t.firstWaiting n w = s.firstWaiting n w := by
    simp only [State.firstWaiting_eq, hw]
  have hnext : t.nextGrant = s.nextGrant := by
    unfold State.nextGrant
    rw [hr]
    simp only [hfirst]
  unfold State.grant
  rw [hr, hnext]

/-- The taking of a strobe's items while points are generated (R23): the base that the points leave, with the
high-water mark raised. -/
theorem DistanceBase.takeItems_of_running {b : DistanceBase} (h : b.running = true) (sam : SamplingImage)
    (o : OdometryImage) (i : StrobeItems) : b.takeItems sam o i =
      let r := i.net - b.n0
      { (List.range' (firstNewPoint sam b.high) (newPoints sam b.high r)).foldl
          (fun b j => b.generate sam o i.strobe (r - i.delta) r j) { b with net := i.net } with
        high := max b.high r } := by
  unfold DistanceBase.takeItems
  dsimp only
  rw [if_pos h, generateFrom_eq_foldl]

theorem DistanceBase.takeItems_of_stopped {b : DistanceBase} (h : b.running = false) (sam : SamplingImage)
    (o : OdometryImage) (i : StrobeItems) : b.takeItems sam o i = { b with net := i.net } := by
  unfold DistanceBase.takeItems
  exact if_neg (by rw [h]; nofun)

/-- The last of the points of a strobe is the number of whole intervals in the high-water mark, when it was so
before (R23, R26). -/
theorem lastPoint_of_high {last : Nat} {sam : SamplingImage} {high r : Int} (hi : 0 < intervalMicrons sam)
    (hh : 0 ≤ high) (hlast : (last : Int) = high / intervalMicrons sam) :
    (((List.range' (firstNewPoint sam high) (newPoints sam high r)).getLastD last : Nat) : Int)
      = max high r / intervalMicrons sam := by
  have h3 : 0 ≤ high / intervalMicrons sam := Int.ediv_nonneg hh hi.le
  rcases le_total r high with hle | hle
  · have hdiv : r / intervalMicrons sam ≤ high / intervalMicrons sam := Int.ediv_le_ediv hi hle
    have hnone : newPoints sam high r = 0 := by
      unfold newPoints
      omega
    rw [hnone, max_eq_left hle]
    exact hlast
  · have hdiv : high / intervalMicrons sam ≤ r / intervalMicrons sam := Int.ediv_le_ediv hi hle
    rw [max_eq_right hle]
    cases hn : newPoints sam high r with
    | zero =>
      unfold newPoints at hn
      refine hlast.trans ?_
      omega
    | succ n =>
      rw [List.range'_concat, List.getLastD_concat]
      unfold newPoints at hn
      unfold firstNewPoint
      omega

/-- Settles O9: the taking of the items, the grant, and the releases, which keep all but the point queue. -/
theorem pointsFollowTheHighWaterMark : Obligations.PointsFollowTheHighWaterMark := by
  unfold Obligations.PointsFollowTheHighWaterMark
  intro s i rest hinbox sam im r handed taken
  set base := ({ s.base with inbox := rest } : DistanceBase).takeItems sam s.store.committed.odometry i with hbase
  set marking := if s.base.running then handed else s.marking with hmarking
  set u : State := { s with base := base, marking := marking } with hu
  have hexec : exec .distanceBaseStrobe s = .next u.grant.releaseReady := by
    change execDistanceBaseStrobe s = _
    unfold execDistanceBaseStrobe
    rw [hinbox]
  have hframe := State.SetFrame.ofReady u.grant
  obtain ⟨b, hb⟩ := DistanceBase.takeItems_out { s.base with inbox := rest } sam s.store.committed.odometry i
  have hout : base.out = s.base.out := by
    rw [hbase, hb]
  set js := List.range' (firstNewPoint sam s.base.high) (newPoints sam s.base.high r) with hjs
  set generated := js.foldl
    (fun b j => b.generate sam s.store.committed.odometry i.strobe (r - i.delta) r j) taken with hgen
  obtain ⟨hsum, hlastpoint, hghigh, hginbox, hgnet, hgrun, hgn0, -⟩ :=
    generate_foldl sam s.store.committed.odometry i.strobe (r - i.delta) r js taken
  have hrunning (hrun : s.base.running = true) : base = { generated with high := max s.base.high r } :=
    DistanceBase.takeItems_of_running (by exact hrun) _ _ _
  have hstopped (hrun : s.base.running = false) : base = taken :=
    DistanceBase.takeItems_of_stopped (by exact hrun) _ _ _
  have hgenerated : base.inbox = rest ∧ base.net = i.net ∧ base.running = s.base.running ∧ base.n0 = s.base.n0 := by
    cases hrun : s.base.running with
    | false =>
      rw [hstopped hrun]
      exact ⟨rfl, rfl, hrun, rfl⟩
    | true =>
      rw [hrunning hrun]
      exact ⟨hginbox, hgnet, hgrun.trans hrun, hgn0⟩
  obtain ⟨hbi, hbn, hbr, hb0⟩ := hgenerated
  refine ⟨_, hexec, ?_, ?_, ?_, ?_, ?_, fun hrun => ?stopped, fun hrun him hhigh => ?points, fun hrun him hhigh hlast => ?mark,
    ?ring, hframe.exc, hframe.run, hframe.tach, hframe.committed, hframe.pending⟩
  · rw [hframe.base]
    exact hbi
  · rw [hframe.base]
    exact hbn
  · rw [hframe.base]
    exact hbr
  · rw [hframe.base]
    exact hb0
  · rw [hframe.base]
    exact hout
  case stopped =>
    have hm : marking = s.marking := if_neg (by rw [hrun]; nofun)
    have hu' : u = { s with base := taken } := by rw [hu, hm, hstopped hrun]
    rw [hframe.base, hframe.marking]
    refine ⟨?_, ?_, ?_, ?_, hm, congrArg (fun u => State.releaseReady (State.grant u)) hu'⟩
    all_goals
      rw [hu']
      rfl
  case points =>
    have hm : marking = handed := if_pos hrun
    refine ⟨hframe.marking.trans hm, js, List.pairwise_lt_range', fun j => mem_newPoints sam s.base.high r him hhigh j, ?_⟩
    rw [hu, hm, hrunning hrun]
  case mark =>
    rw [hframe.base]
    have hbase' : u.grant.base = { generated with high := max s.base.high r } := hrunning hrun
    rw [hbase']
    refine ⟨rfl, ?_, hsum⟩
    exact (congrArg Nat.cast hlastpoint).trans (lastPoint_of_high him hhigh hlast)
  case ring =>
    rw [hframe.ring]
    refine State.grant_ring_congr ⟨rfl, rfl, ?_, hout, rfl⟩ rfl
    rw [hframe.marking]
    rfl

end Sys2Proof.Machine
end

section
/-! PROOFS. The ends of the pulses on the distance strobe lines and on MK (2.6, 8.2). -/

namespace Sys2Proof.Machine

/-! ## The distance strobe lines (R38, R39) -/

/-- The other distance strobe line. -/
def otherLine : DsId → DsId
  | .ds0 => .ds1
  | .ds1 => .ds0

@[simp] theorem DsOutputs.line_setLine (o : DsOutputs) (l : DsId) (d : DsLine) : (o.setLine l d).line l = d := by
  cases l <;> rfl

@[simp] theorem DsOutputs.line_setLine_other (o : DsOutputs) (l : DsId) (d : DsLine) :
    (o.setLine l d).line (otherLine l) = o.line (otherLine l) := by
  cases l <;> rfl

/-- The end of a pulse (R39): the gap runs where a point waits for the line. -/
theorem DsOutputs.expire_of_active {o : DsOutputs} {l : DsId} (h : o.line l = .active) :
    o.expire l = o.setLine l (if o.due.any (fun x => x.on l) then .between else .inactive) := by
  unfold DsOutputs.expire
  dsimp only
  rw [h]

theorem DsOutputs.expire_of_between {o : DsOutputs} {l : DsId} (h : o.line l = .between) :
    o.expire l = (o.setLine l (if o.due.any (fun x => x.on l) then .ready else .inactive)).settle := by
  unfold DsOutputs.expire
  dsimp only
  rw [h]

theorem DsOutputs.expire_of_idle {o : DsOutputs} {l : DsId} (h : o.line l = .inactive ∨ o.line l = .ready) :
    o.expire l = o := by
  unfold DsOutputs.expire
  dsimp only
  rcases h with h | h <;> rw [h]

/-- The end of a gap for which no point waits (R39). -/
theorem DsOutputs.expire_of_nothing_due {o : DsOutputs} {l : DsId} (h : o.line l = .between) (hdue : o.due = []) :
    o.expire l = o.setLine l .inactive := by
  rw [DsOutputs.expire_of_between h, hdue, DsOutputs.settle, DsOutputs.due_setLine, hdue]
  obtain ⟨d0, d1, due⟩ := o
  obtain rfl : due = [] := hdue
  cases l <;> rfl

/-- The end of a gap for which one point waits: its pulses begin when its other line is free or it has none, and
otherwise the line is ready (R38, R39; log 4). -/
theorem DsOutputs.expire_of_one_due {o : DsOutputs} {l : DsId} {x : DsPulses} (h : o.line l = .between)
    (hdue : o.due = [x]) (hon : x.on l = true) : o.expire l =
      if x.on (otherLine l) = true then
        if (o.line (otherLine l)).free = true then ⟨.active, .active, []⟩ else o.setLine l .ready
      else { o.setLine l .active with due := [] } := by
  have hany : o.due.any (fun x => x.on l) = true := by rw [hdue]; simp [hon]
  rw [DsOutputs.expire_of_between h, if_pos hany, DsOutputs.settle, DsOutputs.due_setLine, hdue]
  obtain ⟨d0, d1, due⟩ := o
  obtain ⟨x0, x1⟩ := x
  obtain rfl : due = [⟨x0, x1⟩] := hdue
  cases l with
  | ds0 =>
    obtain rfl : x0 = true := hon
    cases x1 <;> cases d1 <;> rfl
  | ds1 =>
    obtain rfl : x1 = true := hon
    cases x0 <;> cases d0 <;> rfl

/-- Settles O11: the line by its state, and MK's pulse by its end. -/
theorem linePulsesEnd : Obligations.LinePulsesEnd := by
  unfold Obligations.LinePulsesEnd
  refine ⟨?line, ?marker⟩
  case line =>
    intro s l o here there onHere onThere
    have hhere (v : DsOutputs) : here v = v.line l := by cases l <;> rfl
    have hthere (v : DsOutputs) : there v = v.line (otherLine l) := by cases l <;> rfl
    have honHere (x : DsPulses) : onHere x ↔ x.on l = true := by cases l <;> rfl
    have honThere (x : DsPulses) : onThere x ↔ x.on (otherLine l) = true := by cases l <;> rfl
    simp only [hhere, hthere, honHere, honThere]
    refine ⟨o.expire l, rfl, DsOutputs.expire_of_idle, fun h => ?_, fun h => ⟨fun hdue => ?_, fun x hdue hon => ?_⟩⟩
    · rw [DsOutputs.expire_of_active h]
      refine ⟨by simp, by simp, fun ⟨x, hx, hon⟩ => ?_, fun hnone => ?_⟩
      · rw [DsOutputs.line_setLine, if_pos (List.any_eq_true.mpr ⟨x, hx, hon⟩)]
      · rw [DsOutputs.line_setLine, if_neg fun hany => ?_]
        obtain ⟨x, hx, hon⟩ := List.any_eq_true.mp hany
        exact hnone x hx hon
    · rw [DsOutputs.expire_of_nothing_due h hdue]
      simp [hdue]
    · rw [DsOutputs.expire_of_one_due h hdue hon]
      refine ⟨fun hno => ?_, fun hthere hfree => ?_, fun hthere hbusy => ?_⟩
      · rw [if_neg hno]
        exact ⟨DsOutputs.line_setLine _ _ _, DsOutputs.line_setLine_other _ _ _, rfl⟩
      · have : (o.line (otherLine l)).free = true := by rcases hfree with h | h <;> rw [h] <;> rfl
        rw [if_pos hthere, if_pos this]
        cases l <;> exact ⟨rfl, rfl, rfl⟩
      · have : ¬ (o.line (otherLine l)).free = true := by rcases hbusy with h | h <;> rw [h] <;> nofun
        rw [if_pos hthere, if_neg this]
        simp [hdue]
  case marker =>
    intro s
    have hexec : exec .markerPulseEnd s = if s.pulseEndDue then .next { s with marking := { s.marking with line := none } }
        else .next s := rfl
    refine ⟨fun e he hle => ?_, fun hlate => ?_⟩
    · have : s.pulseEndDue = true := by
        unfold State.pulseEndDue
        rw [he]
        exact decide_eq_true hle
      rw [hexec, if_pos this]
    · have : ¬ s.pulseEndDue = true := by
        unfold State.pulseEndDue
        split
        · nofun
        · next e he =>
          rw [decide_eq_true_iff, not_le]
          exact hlate e he
      rw [hexec, if_neg this]

end Sys2Proof.Machine
end

section
/-! PROOFS. Geometry channels (05): the values of a sample, the taking of a sample, and the flush of a segment. -/

namespace Sys2Proof.Machine

/-! ## The values of a sample (R78 to R81, R85) -/

theorem isLowSpeed_iff (sam : SamplingImage) (x : SpatialSample) :
    isLowSpeed sam x = true ↔ x.speed < sam.vMin * 10 := decide_eq_true_iff

@[simp] theorem addValues_none (x : Option Int) : addValues x none = none := by
  cases x <;> rfl

@[simp] theorem none_addValues (x : Option Int) : addValues none x = none := rfl

@[simp] theorem subValues_none (x : Option Int) : subValues x none = none := by
  cases x <;> rfl

@[simp] theorem none_subValues (x : Option Int) : subValues none x = none := rfl

/-- Settles O18: each value is formed where its inputs are present, and at low speed the inertial ones are not. -/
theorem gaugeAndCrossLevelOfASample : Obligations.GaugeAndCrossLevelOfASample := by
  unfold Obligations.GaugeAndCrossLevelOfASample
  intro c sam x v y limited absent
  have hy : y = let e := effectiveValues (isLowSpeed sam x) v
      { sample := x, lowSpeed := isLowSpeed sam x, gauge := gaugeOf c e, xlevel := xlevelOf c e
        yL := subValues e.zL e.vL, yR := subValues e.zR e.vR
        aL := addValues e.w e.dL, aR := subValues e.w e.dR, written := false } := rfl
  have hgauge : y.gauge = saturate ((addValues v.dL v.dR).map (fun d => c.g0 + d)) := by
    rw [hy]
    cases isLowSpeed sam x <;> rfl
  have hlimited (n : Int) : saturate (some n) = limited n := saturate_some n
  refine ⟨rfl, rfl, fun dL dR hL hR => ?_, ?_, isLowSpeed_iff sam x, fun hlow => ?_, fun hlow => ?_⟩
  · rw [hgauge, hL, hR]
    exact hlimited _
  · rintro (h | h) <;> rw [hgauge, h] <;> simp [saturate, absent]
  · have hlow' : isLowSpeed sam x = true := hlow
    rw [hy, hlow']
    refine ⟨?_, ?_, ?_, ?_, ?_⟩ <;> simp [effectiveValues, xlevelOf, saturate, absent]
  · have hlow' : isLowSpeed sam x = false := hlow
    rw [hy, hlow']
    refine ⟨fun phi vL vR hphi hL hR => ?_, ?_, fun z u hz hu => ?_, ?_, fun z u hz hu => ?_, ?_, fun w d hw hd => ?_, ?_,
      fun w d hw hd => ?_, ?_⟩
    · simp only [effectiveValues, Bool.false_eq_true, if_false, xlevelOf, hphi, hL, hR]
      exact hlimited _
    · rintro (h | h | h) <;> simp [effectiveValues, xlevelOf, h, saturate, absent]
    · simp [effectiveValues, hz, hu, subValues]
    · rintro (h | h) <;> simp [effectiveValues, h]
    · simp [effectiveValues, hz, hu, subValues]
    · rintro (h | h) <;> simp [effectiveValues, h]
    · simp [effectiveValues, hw, hd, addValues]
    · rintro (h | h) <;> simp [effectiveValues, h]
    · simp [effectiveValues, hw, hd, subValues]
    · rintro (h | h) <;> simp [effectiveValues, h]

/-! ## The flush of a segment (R90, R94) -/

/-- The records of a flush are those of the samples without one, in order (R90). -/
theorem State.flushes.points {s : State} {window : List WindowSample} {history left : List HistoryPair}
    {rs : List PointRecord} (h : s.flushes window history left rs) :
    rs.map PointRecord.point = (window.filter (fun y => !y.written)).map (fun y => y.sample.point) := by
  obtain ⟨hlen, hs, -, -, hwrites⟩ := h
  refine List.ext_getElem (by simp [hlen]) fun i h1 h2 => ?_
  rw [List.length_map] at h1 h2
  rw [List.getElem_map, List.getElem_map]
  exact (hwrites i _ _ (List.getElem?_eq_getElem h2) (List.getElem?_eq_getElem h1)).1.point.1

theorem State.flushes.nil_iff {s : State} {window : List WindowSample} {history left : List HistoryPair}
    {rs : List PointRecord} (h : s.flushes window history left rs) :
    rs = [] ↔ window.filter (fun y => !y.written) = [] := by
  rw [← List.length_eq_zero_iff, ← List.length_eq_zero_iff, h.1]

/-- What a flush leaves of the unit but its records and history (R90). -/
theorem GeometryUnit.flush_frame (g : GeometryUnit) (sam : SamplingImage) (cls : Nat → Nat) :
    (g.flush sam cls).inbox = g.inbox ∧ (g.flush sam cls).segStart = g.segStart
      ∧ (g.flush sam cls).endFlush = g.endFlush
      ∧ (g.flush sam cls).lastWritten = match (g.window.filter (fun y => !y.written)).getLast? with
        | some y => some y.sample.point
        | none => g.lastWritten := by
  obtain ⟨h1, h2, h3, -, -, h4⟩ := writeAll_frame g sam cls (g.window.filter (fun x => !x.written))
  exact ⟨h1, h2, h3, h4⟩

/-- The flush of a Run Pause, with its report (R90, R94). -/
theorem GeometryUnit.pause_eq (g : GeometryUnit) (sam : SamplingImage) (cls : Nat → Nat) : g.pause sam cls =
    { g.flush sam cls with
      flushLeft := some (if g.window.filter (fun y => !y.written) = [] then 0 else (g.flush sam cls).out.length) } := by
  have hall : g.window.all WindowSample.written = true ↔ g.window.filter (fun y => !y.written) = [] := by
    simp [List.filter_eq_nil_iff]
  unfold GeometryUnit.pause
  by_cases h : g.window.filter (fun y => !y.written) = []
  · rw [if_pos (hall.mpr h), if_pos h]
    rfl
  · rw [if_neg (mt hall.mp h), if_neg h]
    rfl

/-- Settles O20: the flush of the segment, with the report of a Run Pause. -/
theorem pauseFlushesTheSegment : Obligations.PauseFlushesTheSegment := by
  unfold Obligations.PauseFlushesTheSegment
  intro s o ho hstage pending
  set sam := s.store.committed.sampling
  have hst := RunControl.stage?_of_op ho
  rw [hstage] at hst
  have hexec : exec .geometryRunPause s = .next (State.grant
      { s with geo := s.geo.pause sam s.classFor, run := s.run.atStage .flushing }) := by
    change execGeometryRunPause s = _
    unfold execGeometryRunPause
    rw [hst]
  obtain ⟨rs, hout, hflushes⟩ := flush_flushes s s.geo
  obtain ⟨hinbox, hseg, hend, hlast⟩ := s.geo.flush_frame sam s.classFor
  have hpause := s.geo.pause_eq sam s.classFor
  have hwindow := flush_window s.geo sam s.classFor
  set t := State.grant { s with geo := s.geo.pause sam s.classFor, run := s.run.atStage .flushing }
  have hgeo : t.geo = _ := hpause
  have hrun : t.run = _ := RunControl.atStage_of_op ho _
  refine ⟨t, rs, hexec, ?_, ?_, ?_, ?_, ?_, ?_, ?_, ?_, ?_, ?_, hrun, rfl⟩
  all_goals rw [hgeo]
  exacts [hout, hflushes, hwindow, hinbox, hseg, hend, rfl, rfl, hlast]

/-! ## The taking of a sample (R75 to R77, R86, R91, R94) -/

theorem GeometryUnit.endRun_of_none {g : GeometryUnit} (h : g.endFlush = none) (sam : SamplingImage)
    (cls : Nat → Nat) : g.endRun sam cls = g := by
  unfold GeometryUnit.endRun
  rw [h]

theorem GeometryUnit.endRun_of_left {g : GeometryUnit} (h : g.inbox ≠ []) (sam : SamplingImage)
    (cls : Nat → Nat) : g.endRun sam cls = g := by
  unfold GeometryUnit.endRun
  split
  · rfl
  · exact if_neg (by simpa using h)

/-- The end of a run at the geometry unit, once no sample is left to take (R94). -/
theorem GeometryUnit.endRun_of_done {g : GeometryUnit} {drained : Bool} (h : g.endFlush = some drained)
    (hin : g.inbox = []) (sam : SamplingImage) (cls : Nat → Nat) : g.endRun sam cls =
      if g.segOpen then { g.pause sam cls with endFlush := none }
      else { g with flushLeft := some (if drained then g.out.length else 0), endFlush := none } := by
  unfold GeometryUnit.endRun
  rw [h]
  refine (if_pos (by simp [hin])).trans ?_
  by_cases hopen : g.segOpen = true
  · rw [if_pos hopen, if_pos hopen]
  · rw [if_neg hopen, if_neg hopen]
    cases drained <;> rfl

theorem execSpatialSampleTake_of_inbox {s : State} {x : SpatialSample} {rest : List SpatialSample}
    (h : s.geo.inbox = x :: rest) : exec .spatialSampleTake s = .next (State.grant { s with
      geo := (({ s.geo with inbox := rest }).takeSample s.store.installedCal s.store.committed.sampling
        s.classFor x).endRun s.store.committed.sampling s.classFor }) := by
  change execSpatialSampleTake s = _
  unfold execSpatialSampleTake
  rw [h]

/-- The emission of the record that a sample's entry makes due (R86). -/
theorem GeometryUnit.emit_cases (g : GeometryUnit) (sam : SamplingImage) (cls : Nat → Nat) (n : Nat) :
    (∃ y ∈ g.window, emissionDelay sam ≤ n ∧ y.sample.point = n - emissionDelay sam ∧ y.written = false
      ∧ g.emit sam cls n = g.write sam cls false y)
    ∨ ((¬ (emissionDelay sam ≤ n ∧ ∃ y ∈ g.window, y.sample.point = n - emissionDelay sam ∧ y.written = false))
      ∧ g.emit sam cls n = g) := by
  unfold GeometryUnit.emit
  by_cases hn : emissionDelay sam ≤ n
  · rw [if_pos hn]
    cases hfind : g.window.find? (fun x => x.sample.point == n - emissionDelay sam && !x.written) with
    | some y =>
      have hy := List.find?_some
        (p := fun x : WindowSample => x.sample.point == n - emissionDelay sam && !x.written) hfind
      rw [Bool.and_eq_true, beq_iff_eq, Bool.not_eq_true'] at hy
      exact .inl ⟨y, List.mem_of_find?_eq_some hfind, hn, hy.1, hy.2, rfl⟩
    | none =>
      refine .inr ⟨fun ⟨_, y, hy, hp, hw⟩ => ?_, rfl⟩
      have := List.find?_eq_none.mp hfind y hy
      simp [hp, hw] at this
  · rw [if_neg hn]
    exact .inr ⟨fun h => hn h.1, rfl⟩

theorem GeometryUnit.takeSample_of_open {g : GeometryUnit} (h : g.segOpen = true) (c : CalibrationImage)
    (sam : SamplingImage) (cls : Nat → Nat) (x : SpatialSample) :
    g.takeSample c sam cls x = (g.enter c sam x).emit sam cls x.point := if_pos h

theorem GeometryUnit.takeSample_of_closed {g : GeometryUnit} (h : g.segOpen = false) (c : CalibrationImage)
    (sam : SamplingImage) (cls : Nat → Nat) (x : SpatialSample) :
    g.takeSample c sam cls x = g.writePaused sam cls x := if_neg (by rw [h]; nofun)

/-- The emission does not read whether the run ends. -/
theorem GeometryUnit.emit_endFlush (g : GeometryUnit) (e : Option Bool) (sam : SamplingImage) (cls : Nat → Nat)
    (n : Nat) : GeometryUnit.emit { g with endFlush := e } sam cls n = { g.emit sam cls n with endFlush := e } := by
  unfold GeometryUnit.emit
  by_cases hn : emissionDelay sam ≤ n
  · rw [if_pos hn, if_pos hn]
    dsimp only
    cases g.window.find? (fun y => y.sample.point == n - emissionDelay sam && !y.written) <;> rfl
  · rw [if_neg hn, if_neg hn]

/-- The taking of a sample does not read whether the run ends. -/
theorem GeometryUnit.takeSample_endFlush (g : GeometryUnit) (e : Option Bool) (c : CalibrationImage)
    (sam : SamplingImage) (cls : Nat → Nat) (x : SpatialSample) :
    GeometryUnit.takeSample { g with endFlush := e } c sam cls x
      = { g.takeSample c sam cls x with endFlush := e } := by
  by_cases h : g.segOpen = true
  · rw [GeometryUnit.takeSample_of_open (by exact h), GeometryUnit.takeSample_of_open h,
      ← GeometryUnit.emit_endFlush]
    rfl
  · rw [Bool.not_eq_true] at h
    rw [GeometryUnit.takeSample_of_closed (by exact h), GeometryUnit.takeSample_of_closed h]
    rfl

/-- What a sample that is taken leaves of the unit's inbox, report and segment (R77, R86, R91). -/
theorem GeometryUnit.emit_frame (g : GeometryUnit) (sam : SamplingImage) (cls : Nat → Nat) (n : Nat) :
    (g.emit sam cls n).inbox = g.inbox ∧ (g.emit sam cls n).segOpen = g.segOpen
      ∧ (g.emit sam cls n).endFlush = g.endFlush ∧ (g.emit sam cls n).flushLeft = g.flushLeft
      ∧ (g.emit sam cls n).segStart = g.segStart := by
  obtain ⟨y, -, -, -, -, h⟩ | ⟨-, h⟩ := g.emit_cases sam cls n <;> rw [h] <;> exact ⟨rfl, rfl, rfl, rfl, rfl⟩

/-- Settles O17: a paused record, a record that the sample's entry makes due, and the flush of the run's last
sample. -/
theorem spatialSampleTaken : Obligations.SpatialSampleTaken := by
  unfold Obligations.SpatialSampleTaken
  refine ⟨?paused, ?taken, ?last⟩
  case paused =>
    intro s x rest hin hopen
    set sam := s.store.committed.sampling
    set g := GeometryUnit.writePaused { s.geo with inbox := rest } sam s.classFor x with hg
    have hexec := execSpatialSampleTake_of_inbox hin
    rw [GeometryUnit.takeSample_of_closed (by exact hopen)] at hexec
    set t := State.grant { s with geo := g.endRun sam s.classFor }
    have hleft (h : s.geo.endFlush = none ∨ rest ≠ []) : t.geo = g := by
      rcases h with h | h
      · exact GeometryUnit.endRun_of_none (by exact h) sam _
      · exact GeometryUnit.endRun_of_left (by exact h) sam _
    have hdone (drained : Bool) (h : s.geo.endFlush = some drained) (hr : rest = []) : t.geo =
        { g with flushLeft := some (if drained then g.out.length else 0), endFlush := none } := by
      refine (GeometryUnit.endRun_of_done (by exact h) hr sam _).trans (if_neg ?_)
      rw [show g.segOpen = false from hopen]
      nofun
    obtain ⟨left, last, hgeo⟩ : ∃ left last, t.geo = { g with flushLeft := left, endFlush := last } := by
      by_cases hr : rest = []
      · cases he : s.geo.endFlush with
        | none => exact ⟨_, _, hleft (.inl he)⟩
        | some drained => exact ⟨_, _, hdone drained he hr⟩
      · exact ⟨_, _, hleft (.inr hr)⟩
    refine ⟨t, pointRecord x (s.classFor x.point) absentChannels (isLowSpeed sam x) true false, hexec, rfl, ?_, ?_, ?_,
      ?_, ?_, ?_, ?_, rfl, rfl, rfl, rfl, rfl, rfl, rfl, rfl, rfl, rfl, rfl, classFor_is s x.point, isLowSpeed_iff sam x,
      ?_, fun h => ?_, fun drained h hr => ?_⟩
    iterate 6
      · rw [hgeo]
        rfl
    · rw [hgeo]
      exact hopen
    · intro c hc
      have hlist : c ∈ List.replicate 8 absentChannel := hc
      rw [List.eq_of_mem_replicate hlist]
      exact ⟨rfl, rfl⟩
    · rw [hleft h]
      exact ⟨rfl, rfl⟩
    · rw [hdone drained h hr]
      exact ⟨rfl, rfl⟩
  case taken =>
    intro s x rest hin hopen hend sam h m entered due
    set g := GeometryUnit.enter { s.geo with inbox := rest } s.store.installedCal sam x with hg
    have hexec := execSpatialSampleTake_of_inbox hin
    rw [GeometryUnit.takeSample_of_open (by exact hopen)] at hexec
    set t := State.grant { s with geo := (g.emit sam s.classFor x.point).endRun sam s.classFor }
    obtain ⟨hfin, hfopen, hfend, hfleft, hfseg⟩ := g.emit_frame sam s.classFor x.point
    have hgeo : t.geo = g.emit sam s.classFor x.point := by
      rcases hend with hend | hend
      · exact GeometryUnit.endRun_of_none (hfend.trans hend) sam _
      · exact GeometryUnit.endRun_of_left (by rw [hfin]; exact hend) sam _
    have hseg : g.segStart = some (s.geo.segStart.getD x.point) := by
      change (match s.geo.segStart with | none => some x.point | some p => some p) = _
      cases s.geo.segStart <;> rfl
    refine ⟨t, hexec, rfl, ?_, ?_, ?_, ?_, ?_, ?_⟩
    · rw [hgeo, hfin]
      rfl
    · rw [hgeo, hfopen]
      exact hopen
    · rw [hgeo, hfend]
      rfl
    · rw [hgeo, hfleft]
      rfl
    · rw [hgeo, hfseg, hseg]
    · rw [hgeo]
      obtain ⟨y, hy, hle, hp, hw, hemit⟩ | ⟨hno, hemit⟩ := g.emit_cases sam s.classFor x.point
      · have hdue : due := ⟨hle, y, hy, hp, hw⟩
        rw [hemit, if_pos hdue]
        refine ⟨?_, fun _ => ⟨_, y, hy, rfl, hp, hw, pointRecord_writes s entered s.geo.history y false, rfl,
          congrArg some hp, rfl⟩, fun hnot => absurd hdue hnot⟩
        have hpm : y.sample.point = m := hp
        rw [← hpm]
        rfl
      · have hdue : ¬ due := hno
        rw [hemit, if_neg hdue]
        exact ⟨rfl, fun hd => absurd hd hdue, fun _ => ⟨rfl, rfl, rfl, rfl⟩⟩
  case last =>
    intro s x drained hin hopen hend
    set sam := s.store.committed.sampling
    set g := GeometryUnit.takeSample { s.geo with inbox := [], endFlush := none } s.store.installedCal sam s.classFor x
      with hg
    set g' : GeometryUnit := { g with endFlush := some drained } with hg'
    have hexec := execSpatialSampleTake_of_inbox hin
    have htake : ({ s.geo with inbox := [] } : GeometryUnit).takeSample s.store.installedCal sam s.classFor x = g' := by
      rw [hg', hg, ← GeometryUnit.takeSample_endFlush, ← hend]
    rw [htake] at hexec
    have hframe : g.inbox = [] ∧ g.segOpen = true ∧ g.endFlush = none := by
      rw [hg, GeometryUnit.takeSample_of_open (by exact hopen)]
      obtain ⟨hfin, hfopen, hfend, -, -⟩ := (GeometryUnit.enter { s.geo with inbox := [], endFlush := none }
        s.store.installedCal sam x).emit_frame sam s.classFor x.point
      exact ⟨hfin, hfopen.trans hopen, hfend⟩
    obtain ⟨hgin, hgopen, hgend⟩ := hframe
    set u := State.grant { s with geo := g.endRun sam s.classFor }
    have hugeo : u.geo = g := GeometryUnit.endRun_of_none hgend sam _
    have hexecu : exec .spatialSampleTake { s with geo := { s.geo with endFlush := none } } = .next u :=
      execSpatialSampleTake_of_inbox (s := { s with geo := { s.geo with endFlush := none } }) hin
    set t := State.grant { s with geo := g'.endRun sam s.classFor }
    obtain ⟨rs, hout, hflushes⟩ := flush_flushes s g'
    obtain ⟨hinbox, hseg, -, hlast⟩ := g'.flush_frame sam s.classFor
    have htgeo : t.geo = { g'.flush sam s.classFor with
        flushLeft := some (if g'.window.filter (fun y => !y.written) = [] then 0
          else (g'.flush sam s.classFor).out.length)
        endFlush := none } := by
      refine (GeometryUnit.endRun_of_done (g := g') rfl hgin sam _).trans ((if_pos hgopen).trans ?_)
      rw [g'.pause_eq]
    have hpoints := congrArg List.getLast? hflushes.points
    rw [List.getLast?_map, List.getLast?_map] at hpoints
    refine ⟨t, u, rs, hexec, hexecu, rfl, ?_⟩
    rw [htgeo, hugeo]
    refine ⟨hout, hflushes, flush_window g' sam s.classFor, hseg, hlast.trans ?_, hinbox.trans hgin, rfl, rfl, rfl, ?_⟩
    · cases hp : (g'.window.filter (fun y => !y.written)).getLast? with
      | none =>
        rw [hp] at hpoints
        rw [Option.map_eq_none_iff.mp hpoints]
      | some y =>
        rw [hp] at hpoints
        obtain ⟨r, hr, hrp⟩ := Option.map_eq_some_iff.mp hpoints
        rw [hr]
        exact congrArg some hrp.symm
    · exact congrArg some (if_congr hflushes.nil_iff.symm rfl rfl)

end Sys2Proof.Machine
end

section
/-! PROOFS. The end of a run at the distance base and the geometry unit (4.5, 5.7, 9.4). -/

namespace Sys2Proof.Machine

/-! ## The drain (R71) -/

/-- The set that the part holds of a strobe, as the claims name it (R71). -/
theorem State.findSet_of_isSetOf {s : State} {k : Word32} {x : SampleSet} (h : s.isSetOf k x) :
    s.findSet k = some x := by
  unfold State.findSet
  rcases h with h | ⟨hnone, hheld, hk⟩
  · rw [h]
  · have : s.lanes.sets.find? (fun y => y.strobe == k) = none := by
      rw [List.find?_eq_none]
      intro y hy
      rw [beq_iff_eq]
      exact hnone y hy
    rw [this, hheld]
    simp [Option.filter, hk]

/-- The sample that the drain makes of a queued point (R71). -/
theorem State.drainSample_spec (s : State) (e : PointEntry) :
    let x := s.drainSample e
    x.point = e.point ∧ x.target = e.target ∧ x.position = e.position
    ∧ x.corrected = e.corrected ∧ x.limited = e.limited
    ∧ x.values = ⟨none, none, none, none, none, none, none, none, none⟩
    ∧ x.absent = ⟨true, true, true, true⟩
    ∧ (∀ own m, s.isSetOf e.strobe own → own.items = some m → x.speed = m.speed)
    ∧ (∀ before own l m, s.isSetOf (e.strobe - 1) before → s.isSetOf e.strobe own →
        before.items = some l → own.items = some m →
        x.flags = ⟨l.flags.disagreement || m.flags.disagreement,
          l.flags.conflict || m.flags.conflict, l.flags.tachFailed || m.flags.tachFailed,
          l.flags.overSpeed || m.flags.overSpeed⟩)
    ∧ (∀ h, s.resampler.held = some h → h.strobe = e.strobe - 1 → x.late = h.late)
    ∧ ((∀ h, s.resampler.held = some h → h.strobe ≠ e.strobe - 1) → x.late = false) := by
  intro x
  have hlate : x.late = match s.resampler.held with
      | some h => h.strobe == e.strobe - 1 && h.late
      | none => false := rfl
  refine ⟨rfl, rfl, rfl, rfl, rfl, rfl, rfl, fun own m hown hm => ?_, fun before own l m hbefore hown hl hm => ?_,
    fun h hheld hk => ?_, fun hne => ?_⟩
  · have hspeed : x.speed = ((s.findSet e.strobe).map SampleSet.speed).getD 0 := rfl
    rw [hspeed, State.findSet_of_isSetOf hown]
    simp [SampleSet.speed, hm]
  · have hflags : x.flags = (((s.findSet (e.strobe - 1)).map SampleSet.tachFlags).getD noFlags).union
        (((s.findSet e.strobe).map SampleSet.tachFlags).getD noFlags) := rfl
    rw [hflags, State.findSet_of_isSetOf hbefore, State.findSet_of_isSetOf hown]
    simp [SampleSet.tachFlags, hl, hm, TachFlags.union]
  · rw [hlate, hheld]
    simp only [hk, beq_self_eq_true, Bool.true_and]
  · rw [hlate]
    cases hheld : s.resampler.held with
    | none => rfl
    | some h =>
      simp only [beq_eq_false_iff_ne.mpr (hne h hheld), Bool.false_and]

/-- Settles O39: the drain of the point queue, and the report or the flush that it leaves due. -/
theorem runEndDrainsThePointQueue : Obligations.RunEndDrainsThePointQueue := by
  unfold Obligations.RunEndDrainsThePointQueue
  intro s o ho hstage pending
  set sam := s.store.committed.sampling
  have hst := RunControl.stage?_of_op ho
  rw [hstage] at hst
  set drained := s.base.queue.map ({ s with base := { s.base with running := false } } : State).drainSample
  set g : GeometryUnit := { s.geo with inbox := s.geo.inbox ++ drained, endFlush := some !s.base.queue.isEmpty } with hg
  set t := State.grant { s with
    base := { s.base with running := false, queue := [] }, geo := g.endRun sam s.classFor, run := s.run.atStage .flushing }
    with ht
  have hexec : exec .distanceBaseRunEnd s = .next t := by
    change execDistanceBaseRunEnd s = _
    unfold execDistanceBaseRunEnd
    rw [hst]
    rfl
  have hflag : (!s.base.queue.isEmpty) = decide (s.base.queue ≠ []) := by
    rw [Bool.eq_iff_iff, decide_eq_true_iff]
    simp
  have hempty (h : s.geo.inbox = []) (hq : s.base.queue = []) : g.inbox = [] ∧ g.endFlush = some false := by
    simp only [hg, h, hq, drained]
    exact ⟨rfl, rfl⟩
  have hleft (h : s.geo.inbox ≠ [] ∨ s.base.queue ≠ []) : t.geo = g := by
    refine GeometryUnit.endRun_of_left (g := g) ?_ sam s.classFor
    simp only [hg, drained, ne_eq, List.append_eq_nil_iff, List.map_eq_nil_iff, not_and_or]
    exact h
  have hdone (h : s.geo.inbox = []) (hq : s.base.queue = []) : t.geo =
      if s.geo.segOpen then { g.pause sam s.classFor with endFlush := none }
      else { g with flushLeft := some 0, endFlush := none } := by
    obtain ⟨hin, hend⟩ := hempty h hq
    exact GeometryUnit.endRun_of_done (g := g) hend hin sam s.classFor
  refine ⟨t, hexec, rfl, rfl, RunControl.atStage_of_op ho _, ⟨drained, ?inbox, by simp [drained], ?samples⟩, ?done, ?left⟩
  case inbox =>
    by_cases h : s.geo.inbox = [] ∧ s.base.queue = []
    · obtain ⟨hin, hq⟩ := h
      have hdin : s.geo.inbox ++ drained = [] := by simp [hin, hq, drained]
      rw [hdone hin hq, hdin]
      split
      · rw [g.pause_eq]
        exact (g.flush_frame sam s.classFor).1.trans hdin
      · exact hdin
    · rw [hleft (not_and_or.mp h)]
  case samples =>
    intro i e x he hx
    have hx' : x = ({ s with base := { s.base with running := false } } : State).drainSample e := by
      simp only [drained, List.getElem?_map, he, Option.map_some, Option.some.injEq] at hx
      exact hx.symm
    rw [hx']
    exact State.drainSample_spec { s with base := { s.base with running := false } } e
  case done =>
    intro hin hq
    have hinbox : s.geo.inbox ++ drained = s.geo.inbox := by
      rw [show drained = [] by simp [drained, hq], List.append_nil]
    have hgeo := hdone hin hq
    by_cases hopen : s.geo.segOpen = true
    · rw [if_pos hopen, g.pause_eq] at hgeo
      obtain ⟨rs, hout, hflushes⟩ := flush_flushes s g
      rw [hgeo]
      exact ⟨rfl, rfl, fun hclosed => absurd hopen (by rw [hclosed]; nofun), fun _ => ⟨rs, hout, hflushes, rfl⟩⟩
    · rw [if_neg hopen, hg, hinbox] at hgeo
      rw [hgeo]
      exact ⟨Bool.not_eq_true _ ▸ hopen, rfl, fun _ => rfl, fun h => absurd h hopen⟩
  case left =>
    intro h
    rw [hleft h, hg, hflag]

end Sys2Proof.Machine
end

section
/-! PROOFS. Tachometers and travel (01): the pulses, and the taking of a strobe; and the step (log 1). -/

namespace Sys2Proof.Machine

/-- Settles O1: a step matches on the queue. -/
theorem stepRunsFrontCommand : Obligations.StepRunsFrontCommand := by
  unfold Obligations.StepRunsFrontCommand
  refine ⟨fun c rest s => rfl, fun s h => ?_⟩
  unfold step
  rw [h]

/-! ## Pulses (R1, R2, R12) -/

theorem State.setTach_same (s : State) (x : TachId) : s.setTach x (s.tach.units.get x) = s := by
  have : s.tach.units.set x (s.tach.units.get x) = s.tach.units := by cases x <;> rfl
  unfold State.setTach
  rw [this]

theorem Tach.risingEdge_of_none {t : Tach} (h : t.candidate = none) (wMin : Nat) (reverse phase2 : Bool) :
    t.risingEdge wMin reverse phase2 = { t with candidate := some ⟨wMin, reverse, phase2⟩ } := by
  unfold Tach.risingEdge
  rw [h]

theorem Tach.risingEdge_of_some {t : Tach} (h : t.candidate ≠ none) (wMin : Nat) (reverse phase2 : Bool) :
    t.risingEdge wMin reverse phase2 = t := by
  unfold Tach.risingEdge
  split
  · rfl
  · next hn => exact absurd hn h

theorem Tach.dropPulse_of_none {t : Tach} (h : t.candidate = none) : t.dropPulse = t := by
  unfold Tach.dropPulse
  rw [h]

theorem Tach.dropPulse_of_some {t : Tach} (h : t.candidate ≠ none) :
    t.dropPulse = { t with candidate := none, glitches := satInc 65535 t.glitches } := by
  unfold Tach.dropPulse
  split
  · next hn => exact absurd hn h
  · rfl

theorem Tach.acceptPulse_of_some {t : Tach} {c : Candidate} (h : t.candidate = some c) : t.acceptPulse =
    { t with
      pulses := t.pulses + (if c.reverse then (if c.phase2 then 1 else -1) else (if c.phase2 then -1 else 1))
      seen := true, silent := 0, candidate := none
      health := if t.health = .failed then .recovering else t.health
      recovery := if t.health = .failed then 0 else t.recovery } := by
  have hdirection : c.direction
      = if c.reverse then (if c.phase2 then 1 else -1) else (if c.phase2 then -1 else 1) := by
    unfold Candidate.direction
    cases c.reverse <;> cases c.phase2 <;> rfl
  unfold Tach.acceptPulse
  rw [h, ← hdirection]

/-- Settles O4: a candidate is begun, dropped or accepted, and otherwise nothing happens. -/
theorem tachometerPulses : Obligations.TachometerPulses := by
  unfold Obligations.TachometerPulses
  refine ⟨?edges, ?accept⟩
  case edges =>
    intro s x level u withUnit
    have hrise : exec (.pulseCandidate x level) s = .next (s.setTach x (u.risingEdge s.store.committed.odometry.wMin
      (s.store.committed.odometry.reverse.get x) level)) := rfl
    have hfall : exec (.glitch x) s = .next (s.setTach x u.dropPulse) := rfl
    refine ⟨fun h => ⟨?_, ?_⟩, fun h => ⟨?_, ?_⟩⟩
    · rw [hrise, Tach.risingEdge_of_none h]
      rfl
    · rw [hfall, Tach.dropPulse_of_none h, State.setTach_same]
    · rw [hrise, Tach.risingEdge_of_some h, State.setTach_same]
    · rw [hfall, Tach.dropPulse_of_some h]
      rfl
  case accept =>
    intro s x c hc u u'
    have haccept : u.acceptPulse = u' := Tach.acceptPulse_of_some hc
    have hexec : exec (.pulseAccept x) s = .next ((s.setTach x u').offerAll (tachNotice x u.health u'.health)) := by
      rw [← haccept]
      rfl
    refine ⟨_, hexec, by rw [offerAll_eq]; rfl, fun p => ?_⟩
    rw [offerAll_eq]
    by_cases hf : u.health = .failed
    · have hnotice : tachNotice x u.health u'.health = [.tachState x .failed .recovering] := by
        simp [tachNotice, u', hf]
      rw [hnotice, if_pos hf]
      cases p <;> rfl
    · have hnotice : tachNotice x u.health u'.health = [] := by
        simp [tachNotice, u', hf]
      rw [hnotice, if_neg hf]
      cases p <;> rfl

/-! ## The taking of a strobe (R3 to R18) -/

/-- The difference of the floors of two scaled counts (R3). -/
theorem Tach.increment_floors (x : Tach) {o : OdometryImage} (h : 0 < o.pulsesPerRev) :
    let c : Int := o.circumference
    let n : Int := o.pulsesPerRev
    ∃ distance latched : Int, x.increment o = distance - latched
      ∧ distance * n ≤ x.pulses * c ∧ x.pulses * c < (distance + 1) * n
      ∧ latched * n ≤ x.latched * c ∧ x.latched * c < (latched + 1) * n := by
  intro c n
  have hn : 0 < n := Int.natCast_pos.mpr h
  exact ⟨x.pulses * c / n, x.latched * c / n, rfl, Int.ediv_mul_le _ hn.ne', Int.lt_ediv_add_one_mul_self _ hn,
    Int.ediv_mul_le _ hn.ne', Int.lt_ediv_add_one_mul_self _ hn⟩

/-- Two increments disagree where their difference is beyond both tolerances (R9, R13). -/
theorem disagrees_iff (o : OdometryImage) (da db : Int) : disagrees o da db = true ↔
    max (o.tolAbs : Int) (max |da| |db| * o.tolRel / 1000) < |da - db| := by
  unfold disagrees
  rw [decide_eq_true_iff, ← Int.ofNat_lt, Int.natCast_natAbs, Nat.cast_max, Int.natCast_ediv, Nat.cast_mul,
    Nat.cast_max, Int.natCast_natAbs, Int.natCast_natAbs]
  rfl

/-- The selection of an increment by the healths (R5, R6, R7). -/
theorem selectIncrement_spec (ha hb : Health) (da db : Int) :
    (ha = .healthy ∧ hb = .healthy → da * db < 0 → selectIncrement ha hb da db = 0)
    ∧ (ha = .healthy ∧ hb = .healthy → ¬ da * db < 0 → |selectIncrement ha hb da db| = max |da| |db|
      ∧ (selectIncrement ha hb da db = da ∨ selectIncrement ha hb da db = db))
    ∧ (ha = .healthy → hb ≠ .healthy → selectIncrement ha hb da db = da)
    ∧ (ha ≠ .healthy → hb = .healthy → selectIncrement ha hb da db = db) := by
  have hboth : selectIncrement .healthy .healthy da db
      = if da * db < 0 then 0 else if db.natAbs ≤ da.natAbs then da else db :=
    if_congr decide_eq_true_iff rfl rfl
  refine ⟨?_, ?_, ?_, ?_⟩
  · rintro ⟨rfl, rfl⟩ h
    rw [hboth, if_pos h]
  · rintro ⟨rfl, rfl⟩ h
    rw [hboth, if_neg h]
    split
    · next hle => exact ⟨(max_eq_left (by rw [Int.abs_eq_natAbs, Int.abs_eq_natAbs]; omega)).symm, .inl rfl⟩
    · next hgt => exact ⟨(max_eq_right (by rw [Int.abs_eq_natAbs, Int.abs_eq_natAbs]; omega)).symm, .inr rfl⟩
  · rintro rfl h
    cases hb with
    | healthy => exact absurd rfl h
    | failed | recovering => rfl
  · rintro h rfl
    cases ha with
    | healthy => exact absurd rfl h
    | failed | recovering => rfl

/-- The over-speed clamp (R8). -/
theorem clampIncrement_spec (period : Nat) (d : Int) :
    (|d| ≤ 139 * period → clampIncrement period d = d)
    ∧ (139 * period < d → clampIncrement period d = 139 * period)
    ∧ (139 * period < -d → clampIncrement period d = -(139 * period))
    ∧ ((clampIncrement period d != d) = true ↔ 139 * period < |d|) := by
  have hmax : (maxIncrement period : Int) = 139 * period := by
    unfold maxIncrement
    push_cast
    rfl
  unfold clampIncrement
  rw [hmax, bne_iff_ne, Int.abs_eq_natAbs]
  split_ifs <;> refine ⟨fun h => ?_, fun h => ?_, fun h => ?_, ?_⟩ <;> omega

/-- The quotient of naturals rounded to the nearest, halves up (R16). -/
theorem roundUpDiv_spec (n : Nat) {d : Nat} (hd : 0 < d) :
    2 * roundUpDiv n d * d ≤ 2 * n + d ∧ 2 * n < 2 * roundUpDiv n d * d + d := by
  unfold roundUpDiv
  have hle := Nat.div_mul_le_self (2 * n + d) (2 * d)
  have hlt := Nat.lt_div_mul_add (a := 2 * n + d) (show 0 < 2 * d by omega)
  have hmul : (2 * n + d) / (2 * d) * (2 * d) = 2 * ((2 * n + d) / (2 * d)) * d := by ring
  rw [hmul] at hle hlt
  omega

/-- The speed of a window with more than one net travel (R16). -/
theorem windowSpeed_spec {window : List Int} {oldest x : Int} {rest : List Int} (h : window = oldest :: x :: rest)
    (net : Int) {period : Nat} (hp : 0 < period) :
    let d : Int := (window.length - 1 : Nat) * period
    ∃ q : Nat, windowSpeed window net period = min 5000 q
      ∧ 2 * (q : Int) * d - d ≤ 2 * (|net - oldest| * 36)
      ∧ 2 * (|net - oldest| * 36) < 2 * q * d + d := by
  subst h
  intro d
  have hd : 0 < (rest.length + 1) * period := Nat.mul_pos (Nat.succ_pos _) hp
  obtain ⟨hle, hlt⟩ := roundUpDiv_spec ((net - oldest).natAbs * 36) hd
  have hdcast : d = (((rest.length + 1) * period : Nat) : Int) := by
    simp [d]
  refine ⟨roundUpDiv ((net - oldest).natAbs * 36) ((rest.length + 1) * period), rfl, ?_⟩
  rw [hdcast, Int.abs_eq_natAbs]
  generalize (rest.length + 1) * period = e at *
  generalize roundUpDiv ((net - oldest).natAbs * 36) e = q at *
  have hle' : (2 * q * e : Int) ≤ 2 * ((net - oldest).natAbs * 36) + e := by exact_mod_cast hle
  have hlt' : (2 * ((net - oldest).natAbs * 36) : Int) < 2 * q * e + e := by exact_mod_cast hlt
  exact ⟨by linarith, hlt'⟩

/-- The tachometer named, and the other one, after the taking of a strobe (R4, R10, R13). -/
theorem TachUnit.takeStrobe_unit (u : TachUnit) (o : OdometryImage) (period : Nat) (k : Word32) (x : TachId) :
    let other : TachId := match x with | .a => .b | .b => .a
    (u.takeStrobe o period k).1.units.get x
      = (((u.units.get x).evaluate o (u.units.get other).health ((u.units.get x).increment o)
          ((u.units.get other).increment o))).latch := by
  cases x <;> rfl

/-- The evaluation of a tachometer, by its health (R10, R11, R13). -/
theorem Tach.evaluate_spec (own : Tach) (o : OdometryImage) (there : Health) (dOwn dThere : Int) :
    let own' := own.evaluate o there dOwn dThere
    let threshold := o.failDistance * 1000
    let apart := max (o.tolAbs : Int) (max |dOwn| |dThere| * o.tolRel / 1000) < |dOwn - dThere|
    (own.health = .failed → own'.health = .failed ∧ own'.recovery = own.recovery)
      ∧ (own.health = .healthy →
          (threshold ≤ own'.silent → there = .healthy → own'.health = .failed ∧ own'.recovery = 0)
          ∧ (own'.silent < threshold ∨ there ≠ .healthy →
            own'.health = .healthy ∧ own'.recovery = own.recovery))
      ∧ (own.health = .recovering →
          (threshold ≤ own'.silent → own'.health = .failed ∧ own'.recovery = 0)
          ∧ (own'.silent < threshold → apart → own'.health = .recovering ∧ own'.recovery = 0)
          ∧ (own'.silent < threshold → ¬ apart → dThere = 0 →
            own'.health = .recovering ∧ own'.recovery = own.recovery)
          ∧ (own'.silent < threshold → ¬ apart → dThere ≠ 0 → own.recovery + 1 = 256 →
            own'.health = .healthy ∧ own'.recovery = 0)
          ∧ (own'.silent < threshold → ¬ apart → dThere ≠ 0 → own.recovery + 1 ≠ 256 →
            own'.health = .recovering ∧ own'.recovery = own.recovery + 1)) := by
  intro own' threshold apart
  have hsilent : own'.silent = own.grownSilence there dThere := own.evaluate_silent o there dOwn dThere
  have hapart : disagrees o dOwn dThere = true ↔ apart := disagrees_iff o dOwn dThere
  rw [hsilent]
  have hmeets : decide (o.failDistance * 1000 ≤ own.grownSilence there dThere) = true
      ↔ threshold ≤ own.grownSilence there dThere := decide_eq_true_iff
  refine ⟨fun h => ?_, fun h => ⟨fun hle hh => ?_, fun hor => ?_⟩, fun h =>
    ⟨fun hle => ?_, fun hlt ha => ?_, fun hlt ha hd => ?_, fun hlt ha hd hr => ?_, fun hlt ha hd hr => ?_⟩⟩
  all_goals
    simp only [own', Tach.evaluate, h]
  · exact ⟨trivial, trivial⟩
  · rw [if_pos ⟨hmeets.mpr hle, hh⟩]
    exact ⟨rfl, rfl⟩
  · rw [if_neg]
    · exact ⟨rfl, rfl⟩
    · rintro ⟨hm, hh⟩
      rcases hor with hlt | hne
      · exact absurd (hmeets.mp hm) (not_le.mpr hlt)
      · exact hne hh
  · rw [if_pos (hmeets.mpr hle)]
    exact ⟨rfl, rfl⟩
  · rw [if_neg (mt hmeets.mp (not_le.mpr hlt)), if_pos (hapart.mpr ha)]
    exact ⟨rfl, rfl⟩
  · rw [if_neg (mt hmeets.mp (not_le.mpr hlt)), if_neg (mt hapart.mp ha), if_pos hd]
    exact ⟨rfl, rfl⟩
  · rw [if_neg (mt hmeets.mp (not_le.mpr hlt)), if_neg (mt hapart.mp ha), if_neg hd, if_pos hr]
    exact ⟨rfl, rfl⟩
  · rw [if_neg (mt hmeets.mp (not_le.mpr hlt)), if_neg (mt hapart.mp ha), if_neg hd, if_neg hr]
    exact ⟨rfl, rfl⟩

/-- Settles O5: the increment, the selection with its clamp and flags, the window with its speed, and each
tachometer. -/
theorem usedIncrementOfAStrobe : Obligations.UsedIncrementOfAStrobe := by
  unfold Obligations.UsedIncrementOfAStrobe
  refine ⟨fun x o h => x.increment_floors h, ?used, ?window, ?health⟩
  case used =>
    intro u o period k a b da db r both apart
    obtain ⟨hopposed, hlarger, hown, hother⟩ := selectIncrement_spec a.health b.health da db
    obtain ⟨hwithin, hover, hunder, hflag⟩ := clampIncrement_spec period (selectIncrement a.health b.health da db)
    refine ⟨selectIncrement a.health b.health da db, hopposed, hlarger, hown, hother, hwithin, hover, hunder, hflag,
      ?_, ?_, ?_, rfl, rfl, rfl, rfl, rfl⟩
    · change (decide both && decide (da * db < 0)) = true ↔ _
      rw [Bool.and_eq_true, decide_eq_true_iff, decide_eq_true_iff]
    · change (decide both && disagrees o da db) = true ↔ _
      rw [Bool.and_eq_true, decide_eq_true_iff, disagrees_iff]
    · change (!decide both) = true ↔ _
      rw [Bool.not_eq_true', decide_eq_false_iff_not]
  case window =>
    intro u o period k r all held
    have hspeed : r.1.speed = windowSpeed held r.2.1.net period := rfl
    refine ⟨rfl, rfl, rfl, fun h => ?_, fun oldest x rest h hp => ?_⟩
    · rw [hspeed, windowSpeed, h] <;> rfl
    · rw [hspeed]
      exact windowSpeed_spec h _ hp
  case health =>
    intro u o period k x r other own there dOwn dThere own' threshold apart
    have hunit : own' = (own.evaluate o there.health dOwn dThere).latch := u.takeStrobe_unit o period k x
    obtain ⟨hfailed, hhealthy, hrecovering⟩ := own.evaluate_spec o there.health dOwn dThere
    rw [hunit]
    refine ⟨?_, ?_, hfailed, hhealthy, hrecovering, rfl⟩
    · obtain ⟨health, recovery, he⟩ := own.evaluate_eq o there.health dOwn dThere
      rw [he]
      rfl
    · change ((own.evaluate o there.health dOwn dThere).silent : Int) = _
      rw [Tach.evaluate_silent, Tach.grownSilence]
      have hcond : (own.health ≠ .failed ∧ (!own.seen) = true ∧ there.health = .healthy)
          ↔ own.health ≠ .failed ∧ own.seen = false ∧ there.health = .healthy := by simp
      rw [if_congr hcond rfl rfl]
      split
      · rw [Nat.cast_add, Int.natCast_natAbs]
      · rfl

end Sys2Proof.Machine
end

section
/-! PROOFS. The two resets (R198, R199) and what every block holds after them. -/

namespace Sys2Proof.Machine

/-! ## Strobe 0 at the tachometer unit (R4, R42) -/

theorem resetTach_evaluate {o : OdometryImage} (h : 0 < o.failDistance) :
    (resetTach.evaluate o .healthy 0 0).latch = resetTach := by
  have hbelow : ¬ o.failDistance * 1000 ≤ 0 := by omega
  simp [Tach.evaluate, Tach.grownSilence, Tach.latch, resetTach, hbelow]

theorem windowSpeed_reset (period : Nat) : windowSpeed [0, 0] 0 period = 0 := by
  have hround (n : Nat) : roundUpDiv 0 n = 0 := by
    unfold roundUpDiv
    rcases n.eq_zero_or_pos with rfl | hn
    · rfl
    · exact Nat.div_eq_of_lt (by omega)
  change min 5000 (roundUpDiv 0 (1 * period)) = 0
  rw [hround]
  rfl

/-- Strobe 0 finds both tachometers as the reset left them: its increments are 0, and its net travel stands
beside the reset's in the speed window. -/
theorem resetTachUnit_takeStrobe {o : OdometryImage} (h : 0 < o.failDistance) (period : Nat) :
    resetTachUnit.takeStrobe o period 0 = ({ resetTachUnit with window := [0, 0] }, strobeZeroItems, []) := by
  have hincrement : resetTach.increment o = 0 := by simp [Tach.increment, resetTach]
  have hselected : selectIncrement .healthy .healthy 0 0 = 0 := by decide
  have hclamp : clampIncrement period 0 = 0 := by
    have hmax : (0 : Int) ≤ maxIncrement period := Int.natCast_nonneg _
    rw [clampIncrement, if_neg (by omega), if_neg (by omega)]
  have hagree : disagrees o 0 0 = false := by simp [disagrees]
  have hopposed : opposed 0 0 = false := by decide
  have hwindow : appendWindow [0] 0 = [0, 0] := by decide
  have ha : resetTachUnit.units.a = resetTach := rfl
  have hb : resetTachUnit.units.b = resetTach := rfl
  have hhealth : resetTach.health = .healthy := rfl
  have hnet : resetTachUnit.net = 0 := rfl
  have hold : resetTachUnit.window = [0] := rfl
  unfold TachUnit.takeStrobe
  simp only [ha, hb, hnet, hold, hhealth, hincrement, hselected, hclamp, hagree, hopposed, resetTach_evaluate h,
    hwindow, windowSpeed_reset, Int.add_zero]
  rfl

/-! ## Strobe 0 at the lane receivers (R60 to R62) -/

/-- With its strobe still waiting for the distance base, the only set of the list closes without a release. -/
theorem State.closeSet_of_only {s : State} {x : SampleSet} (hcal : s.store.stagedCal = false)
    (hsets : s.lanes.sets = [x]) (hwait : s.base.hasTaken x.strobe = false) : s.closeSet x.strobe =
      { s with lanes := { s.lanes with
          sets := [x.formed s.store.installedCal]
          recent := s.lanes.recent ++ [x.recentEntry s.strobe.number] } } := by
  have hheld (r : State) (y : SampleSet) (hb : r.base = s.base) (hy : y.strobe = x.strobe) :
      r.releasable y = false := by
    simp [State.releasable, hb, hy, hwait]
  have hrelease (r : State) (hb : r.base = s.base) (hr : r.lanes.sets = [x.formed s.store.installedCal]) :
      r.releaseReady = r := by
    rw [State.releaseReady, hr, State.releaseChain, if_neg]
    rw [hheld r (x.formed _) hb rfl]
    decide
  simp only [State.closeSet, hcal, hsets, updateSet, State.closeFormed, List.map_cons, List.map_nil, if_true,
    List.find?_cons, beq_self_eq_true, Bool.false_eq_true, if_false]
  exact hrelease _ rfl rfl

/-- Set 0 as strobe 0 opens it under the lane modes of an image (R61). -/
def firstSet (modes : PerLane LaneMode) : SampleSet := openedSet (resetLaneUnit modes).lane 0 strobeZeroItems

/-- The lane receivers once strobe 0 has been taken: set 0 is open, or, awaiting no lane, closed and recent
(R61, R62). -/
def firstLanes (c : CalibrationImage) : LaneUnit :=
  if (firstSet c.modes).complete then
    { resetLaneUnit c.modes with
      sets := [(firstSet c.modes).formed c], recent := [(firstSet c.modes).recentEntry 0] }
  else { resetLaneUnit c.modes with sets := [firstSet c.modes] }

theorem State.lanesTakeStrobe_first {s : State} (hcal : s.store.stagedCal = false)
    (hlanes : s.lanes = resetLaneUnit s.store.installedCal.modes) (hnumber : s.strobe.number = 0)
    (hwait : s.base.hasTaken 0 = false) :
    s.lanesTakeStrobe 0 strobeZeroItems = { s with lanes := firstLanes s.store.installedCal } := by
  have hnone : deadlineStrobes s.store.installedCal.assemblyWindow 0 s.lanes.sets = [] := by rw [hlanes]; rfl
  have hset : openedSet s.lanes.lane 0 strobeZeroItems = firstSet s.store.installedCal.modes := by rw [hlanes]; rfl
  have hopened : s.withOpened 0 strobeZeroItems = { s with lanes :=
      { resetLaneUnit s.store.installedCal.modes with sets := [firstSet s.store.installedCal.modes] } } := by
    rw [State.withOpened, hset, hlanes]
    rfl
  have hclosed : (s.withOpened 0 strobeZeroItems).closeSet 0 = _ :=
    State.closeSet_of_only (x := firstSet s.store.installedCal.modes) hcal (by rw [hopened]) hwait
  have hrecent (x : SampleSet) : ([] ++ [x.recentEntry 0]).filter (fun r => decide (((0 : Word32) - r.closedAt).toNat < 8))
      = [x.recentEntry 0] := List.filter_eq_self.mpr (by simp [SampleSet.recentEntry])
  rw [State.lanesTakeStrobe_eq, hnone, State.closeSets, State.closedIfComplete, hset, firstLanes]
  split
  · rw [hclosed, hopened, hnumber]
    dsimp only
    rw [show (resetLaneUnit s.store.installedCal.modes).recent = [] from rfl, hrecent]
  · rw [hopened]
    rfl

/-! ## The part after a reset -/

/-- The part after a restart, every block written out (R198, R199; log 6). -/
theorem restarted_values (pending : List Instr) {store : Store} (links : PerPort LinkState)
    (hcal : store.stagedCal = false) (hfail : 0 < store.committed.odometry.failDistance) :
    restarted pending store links = { cleared pending store links with
      tach := { resetTachUnit with window := [0, 0] }
      lanes := firstLanes store.installedCal
      base := { resetBase with inbox := [strobeZeroItems] } } := by
  rw [restarted, State.issueStrobe_eq]
  have htake : (cleared pending store links).tach.takeStrobe (cleared pending store links).store.committed.odometry
      (cleared pending store links).strobe.period 0 = ({ resetTachUnit with window := [0, 0] }, strobeZeroItems, []) :=
    resetTachUnit_takeStrobe hfail _
  rw [State.strobeIssued, htake]
  exact State.lanesTakeStrobe_first hcal rfl rfl rfl

theorem firstLanes_lane (c : CalibrationImage) : (firstLanes c).lane = (resetLaneUnit c.modes).lane := by
  unfold firstLanes
  split <;> rfl

theorem resetLaneUnit_get (modes : PerLane LaneMode) (l : Lane) :
    (resetLaneUnit modes).lane.get l = resetReceiver (modes.get l) := by
  cases l <;> rfl

theorem resetReceiver_eq (mode : LaneMode) : resetReceiver mode =
    { state := if mode = .auto then .seeking else .off
      hits := 0, misses := 0, live := false, sticky := ⟨false, false, false⟩, errors := 0, late := 0
      missing := 0, accepted := 0, last := none } := by
  cases mode <;> rfl

/-- Set 0 awaits the lanes of mode AUTO (R60, R61). -/
theorem firstSet_awaited (modes : PerLane LaneMode) (l : Lane) :
    (firstSet modes).awaited.get l = decide (modes.get l = .auto) := by
  rw [firstSet, openedSet_awaited, resetLaneUnit_get]
  cases modes.get l <;> rfl

theorem firstSet_complete_iff (modes : PerLane LaneMode) :
    (firstSet modes).complete = true ↔ ∀ l, modes.get l ≠ .auto := by
  rw [firstSet, openedSet_complete_iff]
  refine forall_congr' fun l => ?_
  rw [show (openedSet (resetLaneUnit modes).lane 0 strobeZeroItems).awaited.get l = _ from firstSet_awaited modes l,
    decide_eq_false_iff_not]

/-- What strobe 0 leaves in the lists of sets, by whether a lane is awaited. -/
theorem firstLanes_sets (c : CalibrationImage) : ∃ x, (firstLanes c).sets = [x] ∧ x.strobe = 0
    ∧ (∀ l, x.slots.get l = none) ∧ (∀ l, x.awaited.get l = decide (c.modes.get l = .auto))
    ∧ x.items = some strobeZeroItems ∧ x.late = false
    ∧ ((∃ l, c.modes.get l = .auto) → x.condition = .opened ∧ (firstLanes c).recent = [])
    ∧ ((∀ l, c.modes.get l ≠ .auto) → x.condition = .closed ∧ (∀ l, x.absent.get l = true)
      ∧ (firstLanes c).recent = [⟨0, 0, ⟨false, false, false, false⟩⟩]) := by
  unfold firstLanes
  split
  · next h =>
    have hnone := (firstSet_complete_iff _).mp h
    exact ⟨_, rfl, rfl, fun l => by cases l <;> rfl, firstSet_awaited _, rfl, rfl,
      fun ⟨l, hl⟩ => absurd hl (hnone l), fun _ => ⟨rfl, fun l => by cases l <;> rfl, rfl⟩⟩
  · next h =>
    exact ⟨_, rfl, rfl, fun l => by cases l <;> rfl, firstSet_awaited _, rfl, rfl, fun _ => ⟨rfl, rfl⟩,
      fun hnone => absurd ((firstSet_complete_iff _).mpr hnone) h⟩

/-- Every block has its value after reset, whatever the settings store and the link states kept. -/
theorem restarted_afterReset (pending : List Instr) {store : Store} (links : PerPort LinkState)
    (hcal : store.stagedCal = false) (hlim : store.stagedLim = false)
    (hfail : 0 < store.committed.odometry.failDistance) : (restarted pending store links).AfterReset links := by
  rw [restarted_values pending links hcal hfail]
  constructor
  case tachs => intro x; cases x <;> rfl
  case lanes => intro l; exact (congrArg (·.get l) (firstLanes_lane _)).trans
                  ((resetLaneUnit_get _ l).trans (resetReceiver_eq _))
  case late => exact (by unfold firstLanes; split <;> rfl : (firstLanes store.installedCal).latePending = false)
  case set => exact firstLanes_sets store.installedCal
  case staged => exact ⟨hcal, hlim⟩
  case ports => intro p; cases p <;> rfl
  case tachCounters => exact ⟨rfl, rfl, rfl, rfl, rfl, rfl⟩
  case strobe => exact ⟨rfl, rfl, rfl, rfl⟩
  case baseInbox => exact ⟨rfl, rfl⟩
  case base => exact ⟨rfl, rfl, rfl, rfl, rfl, rfl, rfl, rfl, rfl, rfl, rfl, rfl⟩
  case geo => exact ⟨rfl, rfl, rfl, rfl, rfl, rfl, rfl, rfl, rfl, rfl⟩
  case exc => exact ⟨rfl, rfl, rfl, rfl, rfl, rfl, rfl, rfl, rfl, rfl⟩
  case held | marking | run | ring | resetPending => rfl

theorem restarted_pending (pending : List Instr) {store : Store} (links : PerPort LinkState)
    (hcal : store.stagedCal = false) (hfail : 0 < store.committed.odometry.failDistance) :
    (restarted pending store links).pending = pending ∧ (restarted pending store links).store = store := by
  rw [restarted_values pending links hcal hfail]
  exact ⟨rfl, rfl⟩

/-- Settles O2: strobe 0 finds both tachometers at rest and no set, so it leaves the tables as they are but for
what its own taking writes. -/
theorem resetLineRestoresTheTables : Obligations.ResetLineRestoresTheTables := by
  unfold Obligations.ResetLineRestoresTheTables
  intro s
  have hfail : 0 < resetStore.committed.odometry.failDistance := by decide
  obtain ⟨hpending, hstore⟩ := restarted_pending s.pending (.all .down) (store := resetStore) rfl hfail
  refine ⟨_, rfl, hpending, restarted_afterReset s.pending (.all .down) rfl rfl hfail, ?_⟩
  rw [hstore]
  exact ⟨rfl, rfl, rfl, fun c => by cases c <;> rfl⟩

/-! ## Reset Part (R198) -/

theorem State.dispatchBlocked_of_resetPending {s : State} {k : Port} (h : s.resetPending = some k) (p : Port) :
    s.dispatchBlocked p = true := by
  simp [State.dispatchBlocked, h]

/-- While an accepted Reset Part waits, no dispatch does anything (R198). -/
theorem exec_dispatches_of_resetPending {s : State} {p k : Port} {c : Instr} (h : s.resetPending = some k)
    (hc : c ∈ dispatches p) : exec c s = .next s := by
  have hblocked := State.dispatchBlocked_of_resetPending h p
  simp only [dispatches, List.mem_append, List.mem_map, List.mem_cons, List.not_mem_nil, or_false] at hc
  obtain ⟨⟨c', code, n⟩, hmem, rfl⟩ | rfl | rfl := hc
  · obtain ⟨f, hf⟩ := exec_of_fixedRequests hmem s
    rw [hf, State.serve_none (State.frontRequest_of_blocked hblocked _)]
  · change execCommitSettings p s = _
    simp only [execCommitSettings, State.frontRequest_of_blocked hblocked]
  · change execUnknownRequest p s = _
    rw [execUnknownRequest, if_pos hblocked]

/-- An accepted Reset Part leaves every block at its value after reset; the settings stay, with what was staged
installed (R185, R198). -/
theorem State.applyReset_spec (s : State) (h : 0 < s.store.committed.odometry.failDistance) :
    s.applyReset.AfterReset (s.ports.map PortState.link) ∧ s.applyReset.pending = s.pending
      ∧ s.applyReset.store.committed = s.store.committed ∧ s.applyReset.store.generations = s.store.generations
      ∧ s.applyReset.store.installedCal
        = (if s.store.stagedCal then s.store.committed.calibration else s.store.installedCal)
      ∧ s.applyReset.store.installedLim
        = (if s.store.stagedLim then s.store.committed.limits else s.store.installedLim) := by
  obtain ⟨hpending, hstore⟩ := restarted_pending s.pending (s.ports.map PortState.link)
    (store := s.store.afterResetPart) rfl h
  refine ⟨restarted_afterReset _ _ rfl rfl h, hpending, ?_⟩
  rw [State.applyReset, hstore]
  exact ⟨rfl, rfl, rfl, rfl⟩

theorem execTransmitFrameEnd_resetOk {s : State} {p : Port} {tag : Word16} {frame : List Byte}
    (h : s.resetPending = some p)
    (ht : (s.ports.get p).tx = some ⟨.reply (.response ⟨22, tag, .ok, []⟩), frame⟩) :
    exec (.transmitFrameEnd p) s = .next s.applyReset := by
  change execTransmitFrameEnd p s = _
  simp only [execTransmitFrameEnd, ht]
  exact if_pos ⟨h, rfl⟩

theorem execLossOfSignal_resetPending {s : State} {p : Port} (h : s.resetPending = some p)
    (hup : (s.ports.get p).link = .up) :
    exec (.lossOfSignal p) s = .next (s.modPort p PortState.goDown).applyReset := by
  change execLossOfSignal p s = _
  simp only [execLossOfSignal, hup, if_pos h]

/-- Settles O3: the request's outcomes at dispatch, and the two moments at which it is applied. -/
theorem resetPartOutcomes : Obligations.ResetPartOutcomes := by
  unfold Obligations.ResetPartOutcomes
  refine ⟨⟨fun s p tag rest hd => ?_, fun s p k c h hc => exec_dispatches_of_resetPending h hc⟩, fun s p h hfail =>
    ⟨fun tag frame ht => ?_, fun hup => ?_⟩⟩
  · have hserve : exec (.resetPart p) s = .next (if (s.access p).reset then s.acceptReset p ⟨22, tag, []⟩
        else s.refuse p ⟨22, tag, []⟩ .notPermitted) :=
      congrArg Host.Outcome.next (State.serve_of_length (code := 22) (n := 0) hd rfl rfl)
    rw [hserve]
    refine ⟨fun hno => ?_, fun hyes hup => ?_⟩
    · rw [if_neg (by simp [hno]), State.refuse_of_front hd.2.2]
    · rw [if_pos hyes]
      simp only [State.acceptReset, hup]
      rfl
  · exact ⟨_, execTransmitFrameEnd_resetOk h ht, s.applyReset_spec hfail⟩
  · obtain ⟨hafter, hrest⟩ := (s.modPort p PortState.goDown).applyReset_spec hfail
    refine ⟨_, _, execLossOfSignal_resetPending h hup, hafter, ?_, fun k hk => ?_, hrest⟩
    · rw [PerPort.get_map]
      exact congrArg PortState.link (PerPort.get_set_same s.ports p (s.ports.get p).goDown)
    · rw [PerPort.get_map]
      exact congrArg PortState.link (PerPort.get_set_ne s.ports hk (s.ports.get p).goDown)

/-! ## The laws right after reset -/

/-- The part right after the reset line is what the restart with the defaults makes of it. -/
theorem restarted_default : restarted [] resetStore (.all .down) = State.reset := by
  have hawaits : ¬ (firstSet defaultCalibration.modes).complete = true := by decide
  have hlanes : firstLanes resetStore.installedCal = { resetLaneUnit defaultCalibration.modes with sets := [setZero] } :=
    if_neg hawaits
  rw [restarted_values [] (.all .down) rfl (by decide), hlanes]
  rfl

theorem reset_trackers : State.reset.exc.trackers = List.replicate 16 none := rfl

theorem reset_ports (p : Port) : State.reset.ports.get p = resetPort .down := by
  cases p <;> rfl

/-- Settles O8: every queue and list is empty, nothing waits, and what strobe 0 wrote keeps the laws of the
tachometer unit. -/
theorem lawsHoldAtReset : Obligations.LawsHoldAtReset := by
  unfold Obligations.LawsHoldAtReset
  refine ⟨?tach, ?mark, ?cls, ?tracker, ?turn, ?ring, ?grant, ?channel, ?window, ?reservation, ?access, ?queue,
    ?down, rfl⟩
  case tach => exact restarted_default ▸ restarted_tachLaw [] (store := resetStore) (by decide) (.all .down)
  case mark => exact ⟨Nat.zero_le _, List.Pairwise.nil⟩
  case cls => exact ⟨Nat.zero_le _, List.Pairwise.nil⟩
  case tracker =>
    refine ⟨rfl, fun t ht => ?_⟩
    rw [reset_trackers] at ht
    rw [List.eq_of_mem_replicate ht]
    trivial
  case turn => exact ⟨rfl, Nat.zero_le _, fun x hx => nomatch hx⟩
  case ring => exact ⟨Nat.zero_le _, rfl, fun i x hx => nomatch hx⟩
  case grant => exact ⟨nofun, fun _ w => by cases w <;> rfl⟩
  case channel =>
    exact ⟨fun _ h => (List.not_mem_nil h).elim, fun _ h => (List.not_mem_nil h).elim,
      fun _ h => (List.not_mem_nil h).elim, fun _ h => (List.not_mem_nil h).elim,
      fun _ h => (List.not_mem_nil h).elim⟩
  case window => exact ⟨by decide, by decide⟩
  case reservation =>
    intro p r hr
    rw [reset_ports] at hr
    exact nomatch hr
  case access => exact ⟨.p0, by decide⟩
  case queue =>
    intro p
    rw [reset_ports]
    exact ⟨Nat.zero_le _, Nat.zero_le _, fun _ => Nat.zero_le _⟩
  case down =>
    intro p
    rw [reset_ports]
    exact fun _ => ⟨rfl, rfl, rfl, rfl, rfl, rfl, rfl, rfl, rfl⟩

end Sys2Proof.Machine
end
